-- ==== Sys2Proof/Word.lean ====
section
/-! DEFINITION. The words of the ZC420: bytes of a frame, the 16-bit counts that wrap, and the maxima at
which counters and sums stop (00_scope.md section 7). -/

namespace Sys2Proof

/-- One byte of a frame. -/
abbrev Byte := BitVec 8

/-- A 16-bit count modulo 65,536: a card sequence, Nr, Ns, Lg, Lh, a mirror number. -/
abbrev Count16 := BitVec 16

/-- The maximum of a tally count, a notice count and a feed counter. -/
abbrev maxCount : Nat := 65535

/-- The maximum of a tally sum. -/
abbrev maxSum : Nat := 16777215

/-- The maximum of a line counter, of the network time and of the list version counter. -/
abbrev max32 : Nat := 4294967295

/-- One past the highest case slot number (R20: 2,048 set slots and 64 spill slots). -/
abbrev slotLimit : Nat := 2112

/-- The first Spill List slot number (R20). -/
abbrev spillBase : Nat := 2048

end Sys2Proof
end

