-- ==== Sys2Proof/Machine/Sparse.lean ====
section
/-! DEFINITION. Indexed tables as plain data: a list of (key, value) pairs in one canonical form, keys
strictly rising. A table whose every place always holds something (`SMap.getD`, `SMap.setD`) lists no
place that holds its default, so that equal tables are equal data. -/

namespace Sys2Proof.Machine

/-- A sparse table: its listed places, in rising order of their keys. -/
abbrev SMap (α : Type) := List (Nat × α)

/-- What the place `k` holds, if it is listed. -/
def SMap.look {α : Type} : SMap α → Nat → Option α
  | [], _ => none
  | (j, v) :: rest, k => if j = k then some v else SMap.look rest k

/-- The table with the place `k` holding `v`. -/
def SMap.put {α : Type} : SMap α → Nat → α → SMap α
  | [], k, v => [(k, v)]
  | (j, w) :: rest, k, v =>
    if k < j then (k, v) :: (j, w) :: rest
    else if k = j then (k, v) :: rest
    else (j, w) :: SMap.put rest k v

/-- The table with the place `k` unlisted. -/
def SMap.del {α : Type} (m : SMap α) (k : Nat) : SMap α := m.filter (fun e => e.1 != k)

/-- What the place `k` holds, an unlisted place holding `d`. -/
def SMap.getD {α : Type} (m : SMap α) (d : α) (k : Nat) : α := (SMap.look m k).getD d

/-- The table with the place `k` holding `v`, in canonical form for the default `d`. -/
def SMap.setD {α : Type} [DecidableEq α] (m : SMap α) (d : α) (k : Nat) (v : α) : SMap α :=
  if v = d then SMap.del m k else SMap.put m k v

/-- The keys rise strictly. -/
abbrev SMap.sorted {α : Type} (m : SMap α) : Prop := m.Pairwise (fun a b => a.1 < b.1)

/-- The canonical form: the keys rise strictly, lie below `n`, and no listed place holds the default. -/
abbrev SMap.wf {α : Type} [DecidableEq α] (m : SMap α) (d : α) (n : Nat) : Prop :=
  SMap.sorted m ∧ ∀ e ∈ m, e.1 < n ∧ e.2 ≠ d

end Sys2Proof.Machine
end

