-- ==== Sys2Proof/Machine/Types.lean ====
section
/-! DEFINITION. The data the ZC420 keeps and carries, as the chapters of spec/ name it: frames, case
records, table entries, records the engine makes, and Pair Link messages. Types only. -/

namespace Sys2Proof.Machine

/-- The two lines (R1). -/
inductive Line where
  | station
  | centre
  deriving DecidableEq, Repr

/-- A good frame (R177, 11.2). The checkword is a function of the rest (`Frame.toBytes`). The trailer
holds 5 bytes when bit 0 of `flags` is set, and none otherwise. -/
structure Frame where
  kind : Byte
  flags : Byte
  body : List Byte
  trailer : List Byte
  deriving DecidableEq, Repr

/-- The name of a case: slot number and use count (R23). -/
structure Handle where
  slot : Nat
  use : Byte
  deriving DecidableEq, Repr

/-- The phase a case was stalled from (R27). -/
inductive StalledFrom where
  | listed
  | bound
  deriving DecidableEq, Repr

/-- The eight phases of a case (02, 2.4). Stalled-from is present in STALLED alone (R25), so it stands
with that phase. -/
inductive Phase where
  | opening
  | listed
  | anchored
  | held
  | bound
  | settled
  | stalled (source : StalledFrom)
  | voiding
  deriving DecidableEq, Repr

/-- Where an anchor came from (02, 2.3). -/
inductive AnchorSource where
  | opening
  | record
  deriving DecidableEq, Repr

/-- The anchor of a case; the event time is absent while the source is OPEN (R25). -/
structure Anchor where
  seq : Count16
  balance : Int
  time : Option Nat
  source : AnchorSource
  deriving DecidableEq, Repr

/-- What a present slot of the sequence window records (R48). -/
structure WinSlot where
  post : Int
  effect : Int
  preReport : Bool
  deriving DecidableEq, Repr

/-- The sequence window (R44): its base and its present slots, keyed by their sequence numbers. -/
structure Window where
  base : Count16
  slots : SMap WinSlot
  deriving DecidableEq, Repr

/-- A contract sub-record, but for its slot, by which the case keys it (02, 2.3). -/
structure Contract where
  product : Nat
  price : Option Nat
  validFrom : Option Nat
  validTo : Option Nat
  trips : Option Nat
  last : Count16
  deriving DecidableEq, Repr

/-- The tally (R58): counts and sums of post-report activity and irregular records. -/
structure Tally where
  uses : Nat := 0
  debitSum : Nat := 0
  blockedUses : Nat := 0
  loads : Nat := 0
  loadSum : Nat := 0
  sales : Nat := 0
  lateCredit : Nat := 0
  duplicates : Nat := 0
  staleSequences : Nat := 0
  latePreReports : Nat := 0
  deriving DecidableEq, Repr

/-- The ten flags of a case, in the order of 11.6. -/
structure CaseFlags where
  chainBreak : Bool := false
  hole : Bool := false
  windowPassed : Bool := false
  bypassed : Bool := false
  unknownProduct : Bool := false
  lateAnchor : Bool := false
  tallyFinal : Bool := false
  stalledOnce : Bool := false
  forced : Bool := false
  lateCreditCapped : Bool := false
  deriving DecidableEq, Repr

/-- A contract carried in kind by an offer (R107). -/
structure CarriedContract where
  slot : Nat
  product : Nat
  validFrom : Option Nat
  validTo : Option Nat
  trips : Option Nat
  deriving DecidableEq, Repr

/-- The held offer of a case (R115). -/
structure HeldOffer where
  number : Nat
  reportDay : Nat
  anchorSeq : Count16
  anchorBalance : Int
  anchorSource : AnchorSource
  lateCredit : Nat
  conversion : Nat
  fee : Nat
  purse : Int
  excess : Nat
  debt : Nat
  inKind : List CarriedContract
  converted : Nat
  dropped : Nat
  expired : Nat
  ceilingClamped : Bool
  floorClamped : Bool
  deriving DecidableEq, Repr

/-- A case record (02, 2.3). -/
structure CaseRecord where
  card : Nat
  phase : Phase
  operator : Nat
  tr : Nat
  knownSeq : Count16
  knownBalance : Int
  pendingCredit : Nat
  feeWaived : Bool
  anchor : Anchor
  listVersion : Option Nat
  removalVersion : Option Nat
  window : Window
  contracts : SMap Contract
  tally : Tally
  flags : CaseFlags
  offerNumber : Nat
  offer : Option HeldOffer
  replacement : Option Nat
  bindTime : Option Nat
  settleTime : Option Nat
  excluded : Nat
  deriving DecidableEq, Repr

/-- One slot of the Case Table: its use count, and its case while it is live (02, 2.1). -/
structure Slot where
  use : Byte := 0
  case : Option CaseRecord := none
  deriving DecidableEq, Repr

/-- ADD or REMOVE (R32). -/
inductive ListKind where
  | add
  | remove
  deriving DecidableEq, Repr

/-- An entry of the List Queue (R32). -/
structure ListEntry where
  handle : Handle
  kind : ListKind
  cancelled : Bool
  deriving DecidableEq, Repr

/-- OFFER or SETTLEMENT (R33). -/
inductive EmitKind where
  | offer
  | settlement
  deriving DecidableEq, Repr

/-- An entry of the Emission List (R33). -/
structure EmitEntry where
  handle : Handle
  kind : EmitKind
  renewed : Bool
  deriving DecidableEq, Repr

/-- An entry of a feed's ack ring (R66). -/
structure Ack where
  version : Nat
  time : Nat
  deriving DecidableEq, Repr

/-- A feed entry (04, 4.2); `active` is the state ACTIVE, its absence ABSENT. -/
structure Feed where
  active : Bool := false
  sweep : Nat := 0
  ring : List Ack := []
  cleared : Nat := 0
  breaches : Nat := 0
  unadmitted : Nat := 0
  regresses : Nat := 0
  acksIgnored : Nat := 0
  deriving DecidableEq, Repr

/-- The horizon H and the settled version Vs (R71). -/
structure Horizon where
  h : Nat := 0
  vs : Nat := 0
  deriving DecidableEq, Repr

/-- A RUNNING walk: the next slot to be visited, and the walk-again mark (R75). -/
structure Walk where
  position : Nat
  again : Bool
  deriving DecidableEq, Repr

/-- The list epoch, unset or set, and the list version counter (R85). -/
structure Injector where
  epoch : Option Nat := none
  counter : Nat := 0
  deriving DecidableEq, Repr

/-- The Network Clock (R63). -/
structure Clock where
  time : Nat := 0
  isSet : Bool := false
  deriving DecidableEq, Repr

/-- The kinds of product (R98). -/
inductive ProductKind where
  | none
  | calendar
  | rolling
  | carnet
  deriving DecidableEq, Repr

/-- The restore modes (R98). -/
inductive RestoreMode where
  | inKind
  | convert
  | drop
  deriving DecidableEq, Repr

/-- A Product Table entry (R98); the default is the entry of kind NONE. -/
structure Product where
  kind : ProductKind := .none
  restore : RestoreMode := .drop
  listPrice : Nat := 0
  total : Nat := 0
  convertFee : Nat := 0
  deriving DecidableEq, Repr

/-- The Policy Set with its defaults (R101). Bit n - 1 of `owned` is set when the load kind of code n is
customer-owned (11.5). -/
structure Policy where
  purseCeiling : Nat := 50000
  overdraftLimit : Nat := 500
  replacementFee : Nat := 500
  refundStep : Nat := 10
  serviceDayOffset : Nat := 10800
  settleLimit : Nat := 10
  retentionDays : Nat := 3
  futureSlack : Nat := 120
  owned : BitVec 5 := 0b01100#5
  deriving DecidableEq, Repr

/-- The attribution modes (R13). -/
inductive Mode where
  | attributing
  | bypass
  deriving DecidableEq, Repr

/-- The kinds of reset (00, 7). -/
inductive ResetCause where
  | powerOn
  | pin
  | command
  | forced
  deriving DecidableEq, Repr

/-- The sixteen notice classes, in their cyclic order (09, 9.1). -/
inductive NoticeClass where
  | caseHeld
  | caseStalled
  | caseSettled
  | lateRecord
  | blockedUse
  | feedBreach
  | sweepRegress
  | ackIgnored
  | unadmittedFeed
  | timeRegress
  | checkword
  | mirrorStale
  | roleChange
  | forceGlitch
  | busyDoneFail
  | tableFullSeen
  deriving DecidableEq, Repr

/-- The values of a subject of kind Line (09, 9.1). -/
inductive NoticeLine where
  | station
  | centre
  | pair
  | hold
  | force
  deriving DecidableEq, Repr

/-- The subject of a notice, with its kind (09, 9.1). -/
inductive Subject where
  | handle (h : Handle)
  | feed (f : Nat)
  | line (l : NoticeLine)
  | tag (t : Nat)
  | homeSet (n : Nat)
  deriving DecidableEq, Repr

/-- What the Notice Unit holds for one class (09, 9.1). -/
structure NoticeEntry where
  count : Nat := 0
  subject : Option Subject := none
  masked : Bool := false
  deriving DecidableEq, Repr

/-- The Notice Unit: its classes, keyed by their codes 1 to 16, and the last-emitted pointer (R155). -/
structure Notices where
  entries : SMap NoticeEntry := []
  pointer : NoticeClass := .tableFullSeen
  deriving DecidableEq, Repr

/-- The five counters of a line (R18). -/
structure LineCounters where
  good : Nat := 0
  discards : Nat := 0
  forwarded : Nat := 0
  consumed : Nat := 0
  inserted : Nat := 0
  deriving DecidableEq, Repr

/-- The reasons of a REJECT, in the order of their codes (11.7). -/
inductive Reason where
  | notActive
  | notStandby
  | busy
  | codeMismatch
  | badField
  | unknownCommand
  | staleHandle
  | wrongPhase
  | duplicateCase
  | tableFull
  | timeUnset
  | futureTime
  | feedActive
  | feedAbsent
  | staleStandby
  | noPartner
  | emissionPending
  | listExhausted
  | noLoadSession
  deriving DecidableEq, Repr

/-- The role of an engine (R163). -/
inductive Role where
  | active
  | standby
  deriving DecidableEq, Repr

/-- The standby currency, own or as viewed (10, 10.3). -/
inductive Currency where
  | current
  | stale
  deriving DecidableEq, Repr

/-- The straps (10, 10.1); `pair` is PAIR present, `prefer` is PREFER set. -/
structure Straps where
  pair : Bool
  member : Fin 2
  prefer : Bool
  number : Fin 16
  deriving DecidableEq, Repr

/-- A SUMMARY record (R36). `case` is the case but for what a SUMMARY does not carry: the contents of the
window, given as a number, and the held offer. -/
structure Summary where
  handle : Handle
  case : CaseRecord
  windowPresent : Nat
  offerPending : Bool
  settlementEmitted : Bool
  deriving DecidableEq, Repr

/-- The window and pointer of a product load session (R143). -/
structure Session where
  first : Nat
  last : Nat
  pointer : Nat
  deriving DecidableEq, Repr

/-- The four busy commands (R138), EXPORT CASES and the takeovers with their progress; that of RESYNC
PARTNER is the copy of the Mirror Unit. `remaining` counts the slots of the window not yet visited;
`handed` says that a HANDOVER has been received. -/
inductive BusyWork where
  | exportCases (phases : BitVec 16) (position remaining count : Nat)
  | resync
  | takeover (handed : Bool)
  | forcedTakeover (noted : Currency)
  deriving DecidableEq, Repr

/-- The busy command: its work, its tag, whether its REPLY has been placed so that its work has begun
(R138), and whether its COMPLETION has been formed (R140). -/
structure Busy where
  work : BusyWork
  tag : Nat
  begun : Bool
  ended : Bool
  deriving DecidableEq, Repr

/-- The result of READ STATUS (R149), group by group. -/
structure Status where
  vendor : Nat
  part : Nat
  revision : Nat
  straps : Straps
  role : Role
  currency : Currency
  pairLinkUp : Bool
  mode : Mode
  busy : Option (Byte × Nat)
  session : Option Session
  walkRunning : Bool
  resetCause : ResetCause
  clock : Clock
  horizon : Horizon
  activeFeeds : Nat
  injector : Injector
  liveCases : Nat
  liveSpill : Nat
  stationBuffer : Nat
  centreBuffer : Nat
  upQueue : Nat
  downQueue : Nat
  insertQueue : Nat
  mirrorQueue : Nat
  listQueue : Nat
  emissions : Nat
  stationUp : Bool
  centreUp : Bool
  stationCounters : LineCounters
  centreCounters : LineCounters
  deriving DecidableEq, Repr

/-- The result fields of a REPLY, command by command; a phase that is absent is "freed" (11.7). -/
inductive Reply where
  | opened (h : Handle)
  | cancelled (h : Handle) (phase : Option Phase)
  | accepted (h : Handle) (phase : Phase) (flags : CaseFlags) (offerNumber : Nat)
  | bound (h : Handle) (phase : Phase) (settleTime : Option Nat)
  | forcedAnchor (h : Handle) (phase : Phase) (excluded offerNumber : Nat)
  | forcedSettle (h : Handle) (phase : Phase) (excluded : Nat) (settleTime : Option Nat)
  | closed (h : Handle)
  | caseFound (h : Handle) (phase : Phase)
  | caseNotFound
  | admitted (feed sweep cleared : Nat) (horizon : Horizon)
  | retired (feed : Nat) (horizon : Horizon)
  | feedRead (entry : Feed) (horizon : Horizon)
  | policy (p : Policy)
  | loadBegun (first last size pointer : Nat)
  | loaded (written asNone pointer : Nat)
  | product (code : Nat) (entry : Product)
  | masks (masked : List Bool)
  | cleared (classes : List (NoticeClass × Nat × Option Subject))
  | mode (m : Mode)
  | status (st : Status)
  | wasReset (cause : ResetCause) (liveCases : Nat)
  | exporting (phases : BitVec 16) (first last size : Nat)
  | begun
  deriving DecidableEq, Repr

/-- The outcome of a command (R133). -/
inductive Verdict where
  | reply (r : Reply)
  | reject (why : Reason)
  deriving DecidableEq, Repr

/-- A RESPONSE (08, 8.2). -/
structure Response where
  tag : Nat
  code : Byte
  member : Fin 2
  verdict : Verdict
  deriving DecidableEq, Repr

/-- The detail of a COMPLETION (R140; 10). -/
inductive Detail where
  | overflow
  | linkDown
  | stop
  | noHandover
  | holdStuck
  | claimLost
  | current
  | stale
  deriving DecidableEq, Repr

/-- A COMPLETION (R140). -/
structure Completion where
  tag : Nat
  code : Byte
  member : Fin 2
  success : Bool
  count : Nat
  detail : Option Detail
  deriving DecidableEq, Repr

/-- A record the Command Unit makes (R136, R140). -/
inductive Answer where
  | summary (r : Summary)
  | response (r : Response)
  | completion (r : Completion)
  deriving DecidableEq, Repr

/-- A NOTICE (R156). -/
structure Notice where
  cls : NoticeClass
  count : Nat
  subject : Option Subject
  member : Fin 2
  deriving DecidableEq, Repr

/-- A record of the Insert Queue (R15). -/
inductive Inserted where
  | answer (a : Answer)
  | notice (n : Notice)
  deriving DecidableEq, Repr

/-- An OFFER record (R116). -/
structure OfferRecord where
  handle : Handle
  card : Nat
  offer : Option HeldOffer
  flags : CaseFlags
  deriving DecidableEq, Repr

/-- A SETTLEMENT record, with the three flags that R121 names; the model gives no value to the other bits of its
case-flag field (11.6; DESIGN CHOICE, log entry 34). -/
structure SettlementRecord where
  handle : Handle
  card : Nat
  operator : Nat
  tr : Nat
  replacement : Option Nat
  bindTime : Option Nat
  settleTime : Option Nat
  listVersion : Option Nat
  tally : Tally
  excluded : Nat
  forced : Bool
  tallyFinal : Bool
  lateCreditCapped : Bool
  deriving DecidableEq, Repr

/-- The contents of an Emission List record, built as its transmission begins (R129). `unnamed`: the
entry's handle names no case, so the rules give the record no contents (log entry 18). -/
inductive EmitBody where
  | offer (r : OfferRecord)
  | settlement (r : SettlementRecord)
  | unnamed
  deriving DecidableEq, Repr

/-- A LIST DELTA (R86), with the entry it was formed from. -/
structure Delta where
  handle : Handle
  kind : ListKind
  epoch : Nat
  version : Nat
  card : Option Nat
  deriving DecidableEq, Repr

/-- What a line transmitter is sending (R4). `held` says that the Emission List entry the record was
built from still stands at the head of the list (R34, R35). -/
inductive Tx where
  | idle
  | credit (lg ns : Count16) (first : Bool)
  | forwarded (f : Frame)
  | inserted (r : Inserted)
  | emission (handle : Handle) (kind : EmitKind) (body : EmitBody) (held : Bool)
  | delta (d : Delta)
  deriving DecidableEq, Repr

/-- A line port (01, 1.1), as a reset leaves it (R6). `heldGrant` is the granted limit Lg frozen while
the port withholds; while it does not, Lg is a function of Nr and the buffer (R2). `lastCredit` is what the last
credit frame carried (R2); that every reset forgets it is a DESIGN CHOICE (log entry 32). -/
structure Port where
  linkUp : Bool := false
  first : Bool := true
  rx : List Frame := []
  nr : Count16 := 0
  heldGrant : Option Count16 := none
  ns : Count16 := 0
  lh : Option Count16 := none
  silence : Nat := 0
  tx : Tx := .idle
  creditDue : Bool := false
  lastCredit : Option (Count16 × Bool) := none
  counters : LineCounters := {}
  deriving DecidableEq, Repr

/-- The sources of the Upward Arbiter (R16). -/
inductive UpSource where
  | forward
  | insert
  | emission
  deriving DecidableEq, Repr

/-- An operation on the List Queue, as a collection write carries it (R165). -/
inductive ListOp where
  | append (e : ListEntry)
  | withdraw (e : ListEntry)
  | remove (e : ListEntry)
  | replace (e : ListEntry)
  | setMark (e : ListEntry)
  deriving DecidableEq, Repr

/-- An operation on the Emission List, as a collection write carries it (R165). -/
inductive EmitOp where
  | append (e : EmitEntry)
  | remove (e : EmitEntry)
  | setMark (e : EmitEntry)
  | clearMark (e : EmitEntry)
  deriving DecidableEq, Repr

/-- A table write (R165): an item with its whole new contents, or a collection operation. -/
inductive TableWrite where
  | policy (p : Policy)
  | product (code : Nat) (e : Product)
  | feed (n : Nat) (e : Feed)
  | horizon (h : Horizon)
  | list (i : Injector)
  | clock (c : Clock)
  | notice (c : NoticeClass) (e : NoticeEntry)
  | slot (n : Nat) (s : Slot)
  | listOp (op : ListOp)
  | emitOp (op : EmitOp)
  deriving DecidableEq, Repr

/-- What a MIRROR WRITE carries: one part of a table write, a copy step of RESYNC PARTNER (R168), or one
message of the run that copies a collection (`index` 0 is the run's first). -/
inductive Payload where
  | write (w : TableWrite) (part parts : Nat)
  | copyBegin
  | copyEnd
  | listRun (index : Nat) (entries : List ListEntry)
  | emitRun (index : Nat) (entries : List EmitEntry)
  deriving DecidableEq, Repr

/-- A MIRROR WRITE (11.8). -/
structure MirrorWrite where
  number : Count16
  last : Bool
  copyStep : Bool
  payload : Payload
  deriving DecidableEq, Repr

/-- How a STANDBY stands to a copy of RESYNC PARTNER (R169): none is under way; it takes one, no gap found; or it has
found a gap, and disregards what comes until the next COPY BEGIN. -/
inductive CopyTaking where
  | idle
  | taking
  | missed
  deriving DecidableEq, Repr

/-- A message of the Mirror Queue: a MIRROR WRITE, or the HANDOVER a yielder places (R172). -/
inductive QueuedMessage where
  | write (m : MirrorWrite)
  | handover (next : Count16)
  deriving DecidableEq, Repr

/-- A message in transmission on the Pair Link (R164). `held` says that a relayed answer still stands
at the head of the relay list. -/
inductive PairTx where
  | stop
  | relay (a : Answer) (held : Bool)
  | yieldRequest
  | queued (m : QueuedMessage)
  | presence
  deriving DecidableEq, Repr

/-- Why an engine waits for the partner's Hold or claims (R163, R173, R174). After a HANDOVER it keeps the currency
held at the handover, which its view takes when the claim has run its course (R167, R173). -/
inductive ClaimCause where
  | startup
  | handover (held : Currency)
  | forced
  deriving DecidableEq, Repr

/-- Where the engine stands with the Hold and Force lines: nothing under way, the start-up delay
running, its Force pulse out, waiting for the partner's Hold to drop, or claiming. -/
inductive HoldStage where
  | settled
  | delay
  | pulsing
  | waiting (cause : ClaimCause)
  | claiming (cause : ClaimCause)
  deriving DecidableEq, Repr

/-- The RESYNC PARTNER copy (R168): whether COPY BEGIN has been placed, how many items have been placed,
and whether COPY END has been. -/
structure Copy where
  begun : Bool
  items : Nat
  ended : Bool
  deriving DecidableEq, Repr

end Sys2Proof.Machine
end

