-- ==== Sys2Proof/Syntax.lean ====
section
/-! DEFINITION. The commands of the block: one constructor per row of spec/opcode_table.json, in the table's
order. An event that takes what stands in the engine (the frame at the head of a buffer, the record at
the head of a queue) carries no operand; an event that brings something in from outside carries it. -/

namespace Sys2Proof

open Machine

/-- The commands, one per row of the table; each docstring names the row's rule. -/
inductive Instr where
  /-- R1: the bytes between a start and an end symbol (R177), holding a record frame. -/
  | recordFrameArrival (line : Line) (bytes : List Byte)
  /-- R3: the bytes between a start and an end symbol (R177), holding a credit frame. -/
  | creditFrameArrival (line : Line) (bytes : List Byte)
  /-- R2: the 20 ms interval of the line has elapsed. -/
  | creditFrameDue (line : Line)
  /-- R5: the silence timer of the line has reached 200 ms. -/
  | silenceTimeout (line : Line)
  /-- R180: the receiver of the line has lost the line signal. -/
  | lossOfSignal (line : Line)
  /-- R38. -/
  | attributeRecord
  /-- R67. -/
  | sweep
  /-- R69. -/
  | listack
  /-- R64. -/
  | time
  /-- R9, R10: the frame taken is at the head of this line's receive buffer. -/
  | forwardUnchanged (line : Line)
  /-- R131. -/
  | controlForPartner
  /-- R134. -/
  | controlCodeReject
  /-- R28. -/
  | openCase
  /-- R30. -/
  | cancelCase
  /-- R112. -/
  | acceptCase
  /-- R117. -/
  | bindCase
  /-- R124. -/
  | forceProgress
  /-- R127. -/
  | closeCase
  /-- R36. -/
  | readCase
  /-- R72. -/
  | admitFeed
  /-- R73. -/
  | retireFeed
  /-- R74. -/
  | readFeed
  /-- R102. -/
  | setPolicy
  /-- R103. -/
  | readPolicy
  /-- R143. -/
  | beginProductLoad
  /-- R144. -/
  | productData
  /-- R100. -/
  | readProduct
  /-- R157. -/
  | setNoticeMask
  /-- R158. -/
  | clearNotices
  /-- R14. -/
  | setMode
  /-- R149. -/
  | readStatus
  /-- R150. -/
  | engineReset
  /-- R146. -/
  | exportCases
  /-- R168. -/
  | resyncPartner
  /-- R171. -/
  | takeover
  /-- R174. -/
  | forcedTakeover
  /-- R16. -/
  | upwardArbiterChoice
  /-- R17. -/
  | downwardArbiterChoice
  /-- R4: the line that was transmitting. -/
  | forwardedRecordCompletes (line : Line)
  /-- R15. -/
  | insertedRecordCompletes
  /-- R129. -/
  | emissionRecordCompletes
  /-- R87. -/
  | addInjected
  /-- R89. -/
  | removeInjected
  /-- R136. -/
  | placeCommandRecord
  /-- R170. -/
  | placeRelay
  /-- R147. -/
  | exportVisit
  /-- R156. -/
  | placeNotice
  /-- R63. -/
  | clockTick
  /-- R77. -/
  | walkVisit
  /-- R37: the straps as the reset reads them. -/
  | powerOnReset (straps : Straps)
  /-- R6: the straps as sampled on the input's release. -/
  | pinReset (straps : Straps)
  /-- R163: the partner's Hold as sampled at the end of the delay. -/
  | startupDelayEnd (partnerHold : Bool)
  /-- R163. -/
  | holdAssertedDuringClaim
  /-- R163. -/
  | claimComplete
  /-- R173. -/
  | partnerHoldReleased
  /-- R173. -/
  | holdStuckTimeout
  /-- R174. -/
  | forcePulseEnd
  /-- R175: the measured length in microseconds, and whether a reset of this engine came while the pulse
  was asserted. -/
  | forcePulseReleased (microseconds : Nat) (spansReset : Bool)
  /-- R164. -/
  | pairLinkDown
  /-- R164. -/
  | presenceDue
  /-- R164: whether the frame is good (R177, 11.8); so for each message below. -/
  | presence (good : Bool)
  /-- R166. -/
  | mirrorWrite (good : Bool) (message : MirrorWrite)
  /-- R167. -/
  | mirrorStop (good : Bool)
  /-- R173: the next mirror number it carries. -/
  | handover (good : Bool) (next : Count16)
  /-- R170: the RESPONSE or COMPLETION it carries. -/
  | responseRelay (good : Bool) (answer : Answer)
  /-- R172. -/
  | yieldRequest (good : Bool)
  /-- R164. -/
  | pairMessageSent
  /-- R168. -/
  | copyItemPlaced
  /-- R169. -/
  | copyEndSent
  /-- R172. -/
  | drainComplete
  /-- R172. -/
  | drainTimeout
  /-- R171. -/
  | takeoverTimeout
  /-- R171. -/
  | holdFallNoHandover
  /-- R2: the line that was transmitting. -/
  | creditFrameSent (line : Line)
  deriving DecidableEq, Repr

end Sys2Proof
end

