-- ==== Sys2Proof/Decode.lean ====
section
/-! DEFINITION. The word decoder. No row of spec/opcode_table.json gives its command any bits (every row's
"fields" is empty and none has "fixed"), so no word spells a command. The codes of CONTROL records (11.5)
are bytes of a frame's body and are read where the Command Unit reads them
(Sys2Proof/Machine/Control.lean). -/

namespace Sys2Proof

/-- The command that a word of the table's bits spells: none, for no row gives bits (log entry 23). -/
def decodeTableWord (_nbits _w : Nat) : Option Instr := none

end Sys2Proof
end

