-- ==== Sys2Proof/Machine/Bytes.lean ====
section
/-! DEFINITION. Bytes and frames: most significant byte first (11.1), the checkword (11.2), and a good frame
read from its bytes and written to them (R177). -/

namespace Sys2Proof.Machine

/-- The number a run of bytes holds, most significant byte first (11.1). -/
def beNat (bs : List Byte) : Nat := bs.foldl (fun n b => n * 256 + b.toNat) 0

/-- The `len` lowest bytes of `n`, most significant first. -/
def beBytes : Nat → Nat → List Byte
  | 0, _ => []
  | len + 1, n => BitVec.ofNat 8 (n / 256 ^ len) :: beBytes len n

/-- A 3-byte two's complement field (11.1). -/
def signed24 (n : Nat) : Int := if n < 8388608 then (n : Int) else (n : Int) - 16777216

/-- The 24 bits of a signed field, as a number. -/
def unsigned24 (i : Int) : Nat := (i % 16777216).toNat

/-- The field of `len` bytes at offset `off`. -/
def fieldAt (off len : Nat) (bs : List Byte) : Nat := beNat ((bs.drop off).take len)

/-- An optional field: `len` bytes from the front when its presence bit is set, none otherwise; and the
bytes after it (11.1). -/
def takeOptional (present : Bool) (len : Nat) (bs : List Byte) : Option Nat × List Byte :=
  if present then (some (beNat (bs.take len)), bs.drop len) else (none, bs)

/-- One step of the checkword's division: generator x^16 + x^12 + x^5 + 1 (11.2). -/
def crcShift (c : BitVec 16) : BitVec 16 :=
  if c.msb then (c <<< 1) ^^^ 0x1021#16 else c <<< 1

/-- The checkword after one more byte, its bits taken most significant first (11.2). -/
def crcByte (c : BitVec 16) (b : Byte) : BitVec 16 :=
  crcShift (crcShift (crcShift (crcShift (crcShift (crcShift (crcShift (crcShift
    (c ^^^ (b.setWidth 16 <<< 8)))))))))

/-- The checkword of a run of bytes: initial value FFFFh, no final inversion (11.2). -/
def checkword (bs : List Byte) : BitVec 16 := bs.foldl crcByte 0xFFFF#16

/-- Bit 0 of a frame's flags: trailer present (11.2). -/
def trailerFlag (flags : Byte) : Bool := flags.getLsbD 0

/-- The length of the trailer a frame's flags announce (11.2). -/
def trailerLength (flags : Byte) : Nat := if trailerFlag flags then 5 else 0

/-- The bytes of a frame before its checkword (11.2). -/
def Frame.covered (f : Frame) : List Byte :=
  f.kind :: f.flags :: (beBytes 2 f.body.length ++ f.body ++ f.trailer)

/-- The bytes of a frame as it is sent (11.2). -/
def Frame.toBytes (f : Frame) : List Byte := f.covered ++ beBytes 2 (checkword f.covered).toNat

/-- A frame whose body and trailer have the lengths 11.2 gives. -/
abbrev Frame.wf (f : Frame) : Prop := f.body.length ≤ 248 ∧ f.trailer.length = trailerLength f.flags

/-- The good frame that bytes between a start and an end symbol hold, if they hold one (R177). -/
def Frame.ofBytes : List Byte → Option Frame
  | kind :: flags :: l1 :: l0 :: rest =>
    let len := beNat [l1, l0]
    let tl := trailerLength flags
    if len ≤ 248 ∧ rest.length = len + tl + 2 then
      let f : Frame := ⟨kind, flags, rest.take len, (rest.drop len).take tl⟩
      if beNat ((rest.drop len).drop tl) = (checkword f.covered).toNat then some f else none
    else none
  | _ => none

/-- The record kinds of 11.2 that the rules name on a line. -/
def kindCredit : Byte := 0x00#8
def kindUse : Byte := 0x01#8
def kindLoad : Byte := 0x02#8
def kindSale : Byte := 0x03#8
def kindSweep : Byte := 0x04#8
def kindListack : Byte := 0x05#8
def kindTime : Byte := 0x10#8
def kindControl : Byte := 0x11#8

/-- USE, LOAD or SALE (R9). -/
def isCardKind (k : Byte) : Bool := k == kindUse || k == kindLoad || k == kindSale

/-- What a credit frame carries: the sender's granted limit, sent count and first mark (11.2). -/
structure Credit where
  limit : Count16
  sent : Count16
  first : Bool
  deriving DecidableEq, Repr

/-- The credit frame's body of 5 bytes (11.2); any other length is discarded (R177). -/
def Credit.ofBody (body : List Byte) : Option Credit :=
  if body.length = 5 then
    some ⟨BitVec.ofNat 16 (fieldAt 0 2 body), BitVec.ofNat 16 (fieldAt 2 2 body), fieldAt 4 1 body != 0⟩
  else none

end Sys2Proof.Machine
end

