-- ==== Sys2Proof/Machine/Flags.lean ====
section
/-! DEFINITION. Saturation, sequence comparison, the codes of 11.7, and the flags of a case. -/

namespace Sys2Proof.Machine

/-- An addition that saturates at `top` (00, 7). -/
def satAdd (top a b : Nat) : Nat := min top (a + b)

/-- A count to 65,535 incremented (R58, R152, R161). -/
def bump (n : Nat) : Nat := satAdd maxCount n 1

/-- A line counter incremented (R18). -/
def bump32 (n : Nat) : Nat := satAdd max32 n 1

/-- `a` is newer than `b` (R43). -/
def newer (a b : Count16) : Bool := 1 ≤ (a - b).toNat && (a - b).toNat ≤ 32767

/-- The number of the line as a notice subject (09, 9.1). -/
def Line.subject : Line → NoticeLine
  | .station => .station
  | .centre => .centre

/-- The order of a notice class, which is its code (09, 9.1; 11.7). -/
def NoticeClass.code : NoticeClass → Nat
  | .caseHeld => 1
  | .caseStalled => 2
  | .caseSettled => 3
  | .lateRecord => 4
  | .blockedUse => 5
  | .feedBreach => 6
  | .sweepRegress => 7
  | .ackIgnored => 8
  | .unadmittedFeed => 9
  | .timeRegress => 10
  | .checkword => 11
  | .mirrorStale => 12
  | .roleChange => 13
  | .forceGlitch => 14
  | .busyDoneFail => 15
  | .tableFullSeen => 16

/-- The sixteen classes in their cyclic order (09, 9.1). -/
def noticeClasses : List NoticeClass :=
  [.caseHeld, .caseStalled, .caseSettled, .lateRecord, .blockedUse, .feedBreach, .sweepRegress,
   .ackIgnored, .unadmittedFeed, .timeRegress, .checkword, .mirrorStale, .roleChange, .forceGlitch,
   .busyDoneFail, .tableFullSeen]

/-- The class of a code, 1 to 16 (11.7). -/
def NoticeClass.ofCode (n : Nat) : Option NoticeClass := noticeClasses.find? (fun c => c.code == n)

/-- The phase codes of 11.7. -/
def Phase.code : Phase → Nat
  | .opening => 1
  | .listed => 2
  | .anchored => 3
  | .held => 4
  | .bound => 5
  | .settled => 6
  | .stalled _ => 7
  | .voiding => 8

/-- Any of the five flags that hold an anchoring case is set (R80). -/
def CaseFlags.holding (f : CaseFlags) : Bool :=
  f.chainBreak || f.hole || f.windowPassed || f.bypassed || f.unknownProduct

/-- The flags with the six holding flags cleared (R113). -/
def CaseFlags.released (f : CaseFlags) : CaseFlags :=
  { f with chainBreak := false, hole := false, windowPassed := false, bypassed := false,
           unknownProduct := false, lateAnchor := false }

/-- The 2-byte case-flag field, bits 0 to 9 (11.6). -/
def CaseFlags.word (f : CaseFlags) : BitVec 16 :=
  let bit (b : Bool) (n : Nat) : BitVec 16 := if b then BitVec.ofNat 16 (2 ^ n) else 0
  bit f.chainBreak 0 ||| bit f.hole 1 ||| bit f.windowPassed 2 ||| bit f.bypassed 3 |||
    bit f.unknownProduct 4 ||| bit f.lateAnchor 5 ||| bit f.tallyFinal 6 ||| bit f.stalledOnce 7 |||
    bit f.forced 8 ||| bit f.lateCreditCapped 9

/-- The command codes of 11.5. -/
def knownCodes : List Byte :=
  [0x01, 0x02, 0x03, 0x04, 0x05, 0x06, 0x07, 0x10, 0x11, 0x12, 0x20, 0x21, 0x22, 0x23, 0x24, 0x30, 0x31,
   0x38, 0x39, 0x3A, 0x40, 0x41, 0x42, 0x43]

/-- The command code of a busy command (11.5). -/
def BusyWork.code : BusyWork → Byte
  | .exportCases _ _ _ _ => 0x40
  | .resync => 0x41
  | .takeover _ => 0x42
  | .forcedTakeover _ => 0x43

/-- The detail that names a currency (R173, R174). -/
def Currency.detail : Currency → Detail
  | .current => .current
  | .stale => .stale

end Sys2Proof.Machine
end

