-- ==== Sys2Proof/Machine/Operands.lean ====
section
/-! DEFINITION. The operand forms: the fields of the records the engine reads (11.4, R178), the address and
header of a CONTROL record (11.5, R10, R131, R179), and the parameters of every command (11.5, R179). A
reader answers nothing when the body does not have the length its kind or command requires. -/

namespace Sys2Proof.Machine

/-! ### Card records (11.4) -/

/-- What a USE, LOAD or SALE carries besides the fields common to the three. -/
inductive CardDetail where
  | use (slot debit : Nat) (validFrom validTo trips epoch version : Option Nat)
  | load (kind amount : Nat)
  | sale (slot product price payment : Nat) (validFrom validTo trips : Option Nat)
  deriving DecidableEq, Repr

/-- The fields of a USE, LOAD or SALE that the Attribution Unit reads (11.4). -/
structure CardRecord where
  card : Nat
  seq : Count16
  time : Nat
  feed : Nat
  post : Int
  detail : CardDetail
  deriving DecidableEq, Repr

/-- A USE body (11.4): 27 bytes and the optional fields its presence byte names. -/
def readUse (bs : List Byte) : Option CardRecord :=
  let pres := (bs.drop 26).headD 0
  let (validFrom, r1) := takeOptional (pres.getLsbD 0) 2 (bs.drop 27)
  let (validTo, r2) := takeOptional (pres.getLsbD 1) 2 r1
  let (trips, r3) := takeOptional (pres.getLsbD 2) 1 r2
  let (epoch, r4) := takeOptional (pres.getLsbD 3) 4 r3
  let (version, _) := takeOptional (pres.getLsbD 4) 4 r4
  let need := 27 + (if pres.getLsbD 0 then 2 else 0) + (if pres.getLsbD 1 then 2 else 0) +
    (if pres.getLsbD 2 then 1 else 0) + (if pres.getLsbD 3 then 4 else 0) +
    (if pres.getLsbD 4 then 4 else 0)
  if 27 ≤ bs.length ∧ bs.length = need then
    some { card := fieldAt 0 6 bs, seq := BitVec.ofNat 16 (fieldAt 6 2 bs), time := fieldAt 8 4 bs
           feed := fieldAt 12 1 bs, post := signed24 (fieldAt 23 3 bs)
           detail := .use (fieldAt 18 1 bs) (fieldAt 19 4 bs) validFrom validTo trips epoch version }
  else none

/-- A LOAD body (11.4): 22 bytes. -/
def readLoad (bs : List Byte) : Option CardRecord :=
  if bs.length = 22 then
    some { card := fieldAt 0 6 bs, seq := BitVec.ofNat 16 (fieldAt 6 2 bs), time := fieldAt 8 4 bs
           feed := fieldAt 12 1 bs, post := signed24 (fieldAt 19 3 bs)
           detail := .load (fieldAt 14 1 bs) (fieldAt 15 4 bs) }
  else none

/-- A SALE body (11.4): 28 bytes and the optional fields its presence byte names. -/
def readSale (bs : List Byte) : Option CardRecord :=
  let pres := (bs.drop 27).headD 0
  let (validFrom, r1) := takeOptional (pres.getLsbD 0) 2 (bs.drop 28)
  let (validTo, r2) := takeOptional (pres.getLsbD 1) 2 r1
  let (trips, _) := takeOptional (pres.getLsbD 2) 1 r2
  let need := 28 + (if pres.getLsbD 0 then 2 else 0) + (if pres.getLsbD 1 then 2 else 0) +
    (if pres.getLsbD 2 then 1 else 0)
  if 28 ≤ bs.length ∧ bs.length = need then
    some { card := fieldAt 0 6 bs, seq := BitVec.ofNat 16 (fieldAt 6 2 bs), time := fieldAt 8 4 bs
           feed := fieldAt 12 1 bs, post := signed24 (fieldAt 24 3 bs)
           detail := .sale (fieldAt 14 1 bs) (fieldAt 15 1 bs) (fieldAt 16 4 bs) (fieldAt 20 4 bs)
             validFrom validTo trips }
  else none

/-- The record a frame carries, nothing when it is malformed by length (R178) or of another kind. -/
def CardRecord.ofFrame (f : Frame) : Option CardRecord :=
  if f.kind = kindUse then readUse f.body
  else if f.kind = kindLoad then readLoad f.body
  else if f.kind = kindSale then readSale f.body
  else none

/-- The ranges of R39 that the kind of the record calls for. -/
def CardDetail.valid : CardDetail → Bool
  | .use slot debit _ _ _ _ _ => slot ≤ 4 && debit ≤ 1000000
  | .load kind amount => 1 ≤ kind && kind ≤ 5 && amount ≤ 1000000
  | .sale slot _ price payment _ _ _ => slot ≤ 3 && price ≤ 1000000 && payment ≤ 1000000

/-- The field validation of R39. -/
def CardRecord.valid (r : CardRecord) : Bool := 1 ≤ r.card && r.feed ≤ 63 && r.detail.valid

/-! ### Progress and time records (11.4) -/

/-- A SWEEP body of 5 bytes: its feed and its time. -/
def readSweep (bs : List Byte) : Option (Nat × Nat) :=
  if bs.length = 5 then some (fieldAt 0 1 bs, fieldAt 1 4 bs) else none

/-- What a LISTACK carries (R69). -/
structure Listack where
  feed : Nat
  epoch : Nat
  version : Nat
  time : Nat
  deriving DecidableEq, Repr

/-- A LISTACK body of 13 bytes. -/
def readListack (bs : List Byte) : Option Listack :=
  if bs.length = 13 then some ⟨fieldAt 0 1 bs, fieldAt 1 4 bs, fieldAt 5 4 bs, fieldAt 9 4 bs⟩ else none

/-- A TIME body of 4 bytes: its network time. -/
def readTime (bs : List Byte) : Option Nat := if bs.length = 4 then some (fieldAt 0 4 bs) else none

/-! ### CONTROL records (11.5) -/

/-- Where a good frame of the Centre Line goes (R10, R131): on downward, consumed and ignored, or to the
engine's own Command Unit. -/
inductive Routing where
  | onward
  | ignored
  | own
  deriving DecidableEq, Repr

/-- The target code of a member (11.5). -/
def memberTarget (m : Fin 2) : Nat := m.val + 1

/-- The routing of a frame by its kind, pair number and target (R10, R131, R179). -/
def routing (straps : Straps) (f : Frame) : Routing :=
  if f.kind = kindControl ∧ 2 ≤ f.body.length ∧ fieldAt 0 1 f.body = straps.number.val then
    if fieldAt 1 1 f.body = memberTarget (1 - straps.member) then .ignored else .own
  else .onward

/-- A STANDBY keeps a CONTROL record of its pair that names its own member (R7, R132). -/
def namesMember (straps : Straps) (f : Frame) : Bool :=
  f.kind == kindControl && decide (2 ≤ f.body.length) &&
    fieldAt 0 1 f.body == straps.number.val && fieldAt 1 1 f.body == memberTarget straps.member

/-- The header of a CONTROL record, as far as the body carries it (R179), and its parameters, which a body
that does not hold the whole header has not. -/
structure Control where
  target : Nat
  code : Byte
  complement : Option Byte
  tag : Nat
  params : Option (List Byte)
  deriving DecidableEq, Repr

/-- The header read from a body (11.5, R179): a tag that is not carried whole is 0, a code that is not
carried is 00h. -/
def Control.ofBody (bs : List Byte) : Control :=
  { target := fieldAt 1 1 bs
    code := (bs.drop 2).headD 0
    complement := (bs.drop 3).head?
    tag := if 6 ≤ bs.length then fieldAt 4 2 bs else 0
    params := if 6 ≤ bs.length then some (bs.drop 6) else none }

/-- The failure of the code checks, orders 1 and 2 of R134. -/
def Control.codeFault (c : Control) : Option Reason :=
  if c.complement ≠ some (~~~c.code) then some .codeMismatch
  else if c.code ∉ knownCodes then some .unknownCommand
  else none

/-! ### Parameters (11.5) -/

/-- A handle as carried: its slot number has 16 bits (R23). -/
def readHandle (bs : List Byte) : Handle := ⟨fieldAt 0 2 bs, BitVec.ofNat 8 (fieldAt 2 1 bs)⟩

/-- A body of exactly `n` bytes. -/
def ofLength (n : Nat) (p : Option (List Byte)) : Option (List Byte) :=
  p.filter (fun bs => bs.length = n)

/-- A contract as OPEN CASE carries it (02, 2.5). -/
structure OpenContract where
  slot : Nat
  product : Nat
  price : Option Nat
  validFrom : Option Nat
  validTo : Option Nat
  trips : Option Nat
  deriving DecidableEq, Repr

/-- The parameters of OPEN CASE (02, 2.5; 11.5). -/
structure OpenParams where
  card : Nat
  tr : Nat
  knownSeq : Count16
  knownBalance : Int
  pendingCredit : Nat
  feeWaived : Nat
  operator : Nat
  contracts : List OpenContract
  deriving DecidableEq, Repr

/-- `n` contracts from the front of the bytes, which they must fill. -/
def readContracts : Nat → List Byte → Option (List OpenContract)
  | 0, bs => if bs = [] then some [] else none
  | n + 1, slot :: product :: pres :: rest =>
    let (price, r1) := takeOptional (pres.getLsbD 0) 3 rest
    let (validFrom, r2) := takeOptional (pres.getLsbD 1) 2 r1
    let (validTo, r3) := takeOptional (pres.getLsbD 2) 2 r2
    let (trips, r4) := takeOptional (pres.getLsbD 3) 1 r3
    let need := (if pres.getLsbD 0 then 3 else 0) + (if pres.getLsbD 1 then 2 else 0) +
      (if pres.getLsbD 2 then 2 else 0) + (if pres.getLsbD 3 then 1 else 0)
    if need ≤ rest.length then
      (readContracts n r4).map (fun cs => ⟨slot.toNat, product.toNat, price, validFrom, validTo, trips⟩ :: cs)
    else none
  | _ + 1, _ => none

/-- The parameters of OPEN CASE, of the length their count and presence bytes name (R179). -/
def readOpen (p : Option (List Byte)) : Option OpenParams :=
  p.bind (fun bs =>
    if 21 ≤ bs.length then
      (readContracts (fieldAt 20 1 bs) (bs.drop 21)).map (fun cs =>
        { card := fieldAt 0 6 bs, tr := fieldAt 6 4 bs, knownSeq := BitVec.ofNat 16 (fieldAt 10 2 bs)
          knownBalance := signed24 (fieldAt 12 3 bs), pendingCredit := fieldAt 15 3 bs
          feeWaived := fieldAt 18 1 bs, operator := fieldAt 19 1 bs, contracts := cs })
    else none)

/-- Condition 3 of R28, and the fee-waived byte of R179. -/
def OpenParams.valid (p : OpenParams) : Bool :=
  p.card != 0 && p.pendingCredit ≤ 1000000 && p.contracts.length ≤ 4 && p.feeWaived ≤ 1 &&
    p.contracts.all (fun c => c.slot ≤ 3 && c.price.all (fun x => x ≤ 1000000)) &&
    decide (p.contracts.map (·.slot)).Nodup

/-- How READ CASE names its case (R36). -/
inductive CaseName where
  | byHandle (h : Handle)
  | byCard (card : Nat)
  deriving DecidableEq, Repr

/-- The parameters of READ CASE, selector first (R179). -/
def readCaseName (p : Option (List Byte)) : Option CaseName :=
  p.bind (fun bs =>
    match bs with
    | sel :: rest =>
      if sel = 0 ∧ rest.length = 3 then some (.byHandle (readHandle rest))
      else if sel = 1 ∧ rest.length = 6 then some (.byCard (beNat rest))
      else none
    | [] => none)

/-- The settings a SET POLICY carries (R102), absent where not carried. -/
structure PolicyParams where
  purseCeiling : Option Nat
  overdraftLimit : Option Nat
  replacementFee : Option Nat
  refundStep : Option Nat
  serviceDayOffset : Option Nat
  settleLimit : Option Nat
  retentionDays : Option Nat
  futureSlack : Option Nat
  owned : Option Nat
  deriving DecidableEq, Repr

/-- The parameters of SET POLICY: a 2-byte presence field and each setting it names (11.5). -/
def readPolicy (p : Option (List Byte)) : Option PolicyParams :=
  p.bind (fun bs =>
    let pres := BitVec.ofNat 16 (fieldAt 0 2 bs)
    let (ceiling, r0) := takeOptional (pres.getLsbD 0) 3 (bs.drop 2)
    let (overdraft, r1) := takeOptional (pres.getLsbD 1) 3 r0
    let (fee, r2) := takeOptional (pres.getLsbD 2) 3 r1
    let (refund, r3) := takeOptional (pres.getLsbD 3) 2 r2
    let (offset, r4) := takeOptional (pres.getLsbD 4) 3 r3
    let (settle, r5) := takeOptional (pres.getLsbD 5) 1 r4
    let (retention, r6) := takeOptional (pres.getLsbD 6) 1 r5
    let (slack, r7) := takeOptional (pres.getLsbD 7) 2 r6
    let (owned, _) := takeOptional (pres.getLsbD 8) 1 r7
    let need := 2 + (if pres.getLsbD 0 then 3 else 0) + (if pres.getLsbD 1 then 3 else 0) +
      (if pres.getLsbD 2 then 3 else 0) + (if pres.getLsbD 3 then 2 else 0) +
      (if pres.getLsbD 4 then 3 else 0) + (if pres.getLsbD 5 then 1 else 0) +
      (if pres.getLsbD 6 then 1 else 0) + (if pres.getLsbD 7 then 2 else 0) +
      (if pres.getLsbD 8 then 1 else 0)
    if 2 ≤ bs.length ∧ bs.length = need then
      some ⟨ceiling, overdraft, fee, refund, offset, settle, retention, slack, owned⟩
    else none)

/-- A product entry as PRODUCT DATA carries it (11.5): its codes and numbers, unchecked. -/
structure RawProduct where
  kind : Nat
  restore : Nat
  listPrice : Nat
  total : Nat
  convertFee : Nat
  deriving DecidableEq, Repr

/-- `n` product entries of 10 bytes each. -/
def readEntries : Nat → List Byte → List RawProduct
  | 0, _ => []
  | n + 1, bs =>
    ⟨fieldAt 0 1 bs, fieldAt 1 1 bs, fieldAt 2 3 bs, fieldAt 5 2 bs, fieldAt 7 3 bs⟩ ::
      readEntries n (bs.drop 10)

/-- The parameters of PRODUCT DATA: 1 to 8 entries (R144, R179). -/
def readProducts (p : Option (List Byte)) : Option (List RawProduct) :=
  p.bind (fun bs =>
    let n := fieldAt 0 1 bs
    if 1 ≤ bs.length ∧ bs.length = 1 + 10 * n ∧ 1 ≤ n ∧ n ≤ 8 then some (readEntries n (bs.drop 1))
    else none)

/-- The parameters of SET NOTICE MASK: sixteen states, true for MASKED (R157, 11.7). -/
def readMasks (p : Option (List Byte)) : Option (List Bool) :=
  p.bind (fun bs =>
    if bs.length = 16 ∧ bs.all (fun b => b == 1#8 || b == 2#8) then some (bs.map (fun b => b == 1#8))
    else none)

/-- The parameters of CLEAR NOTICES: a count and as many classes (R158). -/
def readClasses (p : Option (List Byte)) : Option (List NoticeClass) :=
  p.bind (fun bs =>
    match bs with
    | n :: rest =>
      if rest.length = n.toNat then rest.mapM (fun b => NoticeClass.ofCode b.toNat) else none
    | [] => none)

end Sys2Proof.Machine
end

