-- ==== Sys2Proof/Config.lean ====
section
/-! DEFINITION. The free values: what the spec leaves open. Each is a constant with no body, so that a
statement proved of the model holds whatever the value is. -/

namespace Sys2Proof.Config

open Machine

/-- How many MIRROR WRITE messages beyond one a write to the live case slot of this number and contents takes
(R165 says an item that does not fit one frame takes several; 11.8 gives no layout of the contents). At most 127, for
the copy of R168 places an item when the Mirror Queue, of 128 places, has one for each of its messages.
DESIGN CHOICE, log entry 5. -/
opaque slotExtraParts : Nat → Slot → Fin 128

/-- What the Network Clock reads from a TIME record whose body is not the 4 bytes of 11.4: a network
time, or nothing. R178 gives no rule for such a body. DESIGN CHOICE, log entry 6. -/
opaque oddTime : List Byte → Option (BitVec 32)

/-- The count a COMPLETION of a failed takeover carries (R140 leaves it to chapter 10, which gives a count
for success alone); the argument numbers the occasions. DESIGN CHOICE, log entry 7. -/
opaque failedTakeoverCount : Nat → Nat

end Sys2Proof.Config
end

