-- ==== Sys2Proof/Machine/State.lean ====
section
/-! DEFINITION. The state of one engine, as plain data, and the state right after reset. INVENTORY.md lists
every field with the rule that names it. -/

namespace Sys2Proof.Machine

/-- The Command Unit (08, 8.3). The current command is present exactly while `waiting` holds a RESPONSE. -/
structure CommandUnit where
  waiting : List Answer := []
  busy : Option Busy := none
  session : Option Session := none
  deriving DecidableEq, Repr

/-- The Mirror Unit (chapter 10). `drain` holds, while a takeover drain runs, whether its second has
passed. `writes` is the model's own: the table writes of the present event, empty between events. -/
structure MirrorUnit where
  straps : Straps
  role : Role := .standby
  stage : HoldStage := .settled
  currency : Currency := .stale
  queue : List QueuedMessage := []
  next : Count16 := 0
  expected : Count16 := 0
  group : List MirrorWrite := []
  copyRx : CopyTaking := .idle
  linkUp : Bool := false
  silence : Nat := 0
  tx : Option PairTx := none
  stopDue : Bool := false
  yieldDue : Bool := false
  presenceDue : Bool := false
  relayList : List Answer := []
  relayHold : List Answer := []
  holdOut : Bool := false
  forceOut : Bool := false
  drain : Option Bool := none
  copy : Option Copy := none
  writes : List TableWrite := []
  deriving DecidableEq, Repr

/-- The state of one ZC420 engine, and the queue of commands that wait for it. -/
structure State where
  pending : List Instr := []
  station : Port := {}
  centre : Port := {}
  upQueue : List Frame := []
  downQueue : List Frame := []
  insertQueue : List Inserted := []
  upPointer : UpSource := .emission
  deltaCount : Nat := 0
  mode : Mode := .attributing
  slots : SMap Slot := []
  spill : SMap Nat := []
  listQueue : List ListEntry := []
  emissions : List EmitEntry := []
  feeds : SMap Feed := []
  horizon : Horizon := {}
  walk : Option Walk := none
  clock : Clock := {}
  injector : Injector := {}
  products : SMap Product := []
  policy : Policy := {}
  cu : CommandUnit := {}
  notices : Notices := {}
  mirror : MirrorUnit
  resetCause : ResetCause := .powerOn
  draws : Nat := 0
  deriving DecidableEq, Repr

/-- Why the machine would stop. No rule of the spec stops the engine (INVENTORY.md, Faults): there is no
constructor, and no meaning faults. -/
inductive Fault where
  deriving DecidableEq, Repr

/-- Why a command would be refused. -/
inductive Refusal where
  /-- Raised by `exec` for a command whose meaning has not been written; safe, since nothing is claimed of
  a command that is refused. No arm raises it: every row has its meaning. -/
  | notModelled (mnemonic : String)
  deriving DecidableEq, Repr

/-- The straps that State.reset takes as read: PAIR absent, MEMBER 0, PREFER clear, PAIR NUMBER 0.
DESIGN CHOICE, log entry 3: the straps are inputs. -/
def resetStraps : Straps := ⟨false, 0, false, 0⟩

/-- A port right after a reset of an ACTIVE engine: R6's state, with the credit frame that R2 makes due
begun. -/
def resetPort : Port := { tx := .credit 16 0 true, lastCredit := some (16, true) }

/-- The engine right after a POWER-ON reset with `resetStraps` (R6, R13, R16, R17, R37, R63, R66, R71, R97,
R98, R101, R160, R176): without the PAIR strap it is ACTIVE at once and asserts Hold (R162), has counted
ROLE_CHANGE (R154) and has begun a walk (R75). -/
def State.reset : State :=
  { station := resetPort
    centre := resetPort
    walk := some ⟨0, false⟩
    notices := { entries := [(13, { count := 1, subject := some (.line .hold) })] }
    mirror := { straps := resetStraps, role := .active, holdOut := true } }

end Sys2Proof.Machine
end

