-- ==== Sys2Proof/Machine/Ops.lean ====
section
/-! DEFINITION. The named operations every meaning is written over: reading and writing the tables, each
write noted for the Mirror Queue (R165); counting notices (R152); the port's credit (R2); the Command
Unit's answers and busy commands (R136 to R140, R170); stopping mirroring (R167); and what ends every
event: its group of mirror writes is placed, and free transmitters begin what is due. -/

namespace Sys2Proof.Machine

/-! ### Reading the tables -/

/-- The port of a line. -/
def State.port (s : State) : Line → Port
  | .station => s.station
  | .centre => s.centre

/-- The state with the port of a line changed. -/
def State.onPort (s : State) (l : Line) (f : Port → Port) : State :=
  { s with station := if l = .station then f s.station else s.station
           centre := if l = .centre then f s.centre else s.centre }

/-- What a case slot holds (R20). -/
def State.slotAt (s : State) (n : Nat) : Slot := SMap.getD s.slots {} n

/-- The case in a slot, if the slot is live. -/
def State.caseAt (s : State) (n : Nat) : Option CaseRecord := (s.slotAt n).case

/-- The handle of the case in a slot, formed from its use count as it stands (R23). -/
def State.handleAt (s : State) (n : Nat) : Handle := ⟨n, (s.slotAt n).use⟩

/-- A feed entry (04, 4.2). -/
def State.feedAt (s : State) (n : Nat) : Feed := SMap.getD s.feeds {} n

/-- A Product Table entry (R98). -/
def State.productAt (s : State) (code : Nat) : Product := SMap.getD s.products {} code

/-- The spill count of a home set (R20). -/
def State.spillAt (s : State) (set : Nat) : Nat := SMap.getD s.spill 0 set

/-- What the Notice Unit holds for a class (09, 9.1). -/
def State.noticeAt (s : State) (c : NoticeClass) : NoticeEntry := SMap.getD s.notices.entries {} c.code

/-- The engine is ACTIVE. -/
def State.isActive (s : State) : Bool := s.mirror.role == .active

/-- The handle is current: it names the case in its slot (R23). -/
def State.named (s : State) (h : Handle) : Option CaseRecord :=
  if h.slot < slotLimit ∧ (s.slotAt h.slot).use = h.use then s.caseAt h.slot else none

/-! ### The credit of a port (R2) -/

/-- The granted limit Lg: frozen while the port withholds, and otherwise Nr plus the free places of the
receive buffer, modulo 65,536 (R2). -/
def Port.lg (p : Port) : Count16 := p.heldGrant.getD (p.nr + BitVec.ofNat 16 (16 - p.rx.length))

/-- The line is quiescent: the port is withholding and Nr equals Lg (R2). -/
def Port.quiescent (p : Port) : Bool := p.heldGrant == some p.nr

/-- The port begins to withhold: Lg keeps the value it has (R2). -/
def Port.withhold (p : Port) : Port := { p with heldGrant := some p.lg }

/-- A credit frame is due: the interval has elapsed, or Lg or the first mark differs from what the last
one carried (R2). -/
def Port.creditWanted (p : Port) : Bool := p.creditDue || p.lastCredit != some (p.lg, p.first)

/-- On an ACTIVE engine an idle transmitter begins the credit frame that is due (R2); a STANDBY sends no
frame (R7). -/
def Port.startCredit (active : Bool) (p : Port) : Port :=
  if active && p.tx == .idle && p.creditWanted then
    { p with tx := .credit p.lg p.ns p.first, lastCredit := some (p.lg, p.first), creditDue := false }
  else p

/-- The port may begin a record frame (R4). -/
def Port.mayBegin (active : Bool) (p : Port) : Bool :=
  active && p.linkUp && p.tx == .idle &&
    (match p.lh with
     | some lh => 1 ≤ (lh - p.ns).toNat && (lh - p.ns).toNat ≤ 16
     | none => false)

/-- The port begins a record frame: Ns takes its increment (R4). -/
def Port.beginFrame (t : Tx) (p : Port) : Port := { p with tx := t, ns := p.ns + 1 }

/-! ### Table writes and their mirroring (R165) -/

/-- The place of a write's item in the order of the copy of RESYNC PARTNER (R168). -/
def TableWrite.item : TableWrite → Nat
  | .policy _ => 0
  | .product code _ => 1 + code
  | .feed n _ => 257 + n
  | .horizon _ => 321
  | .list _ => 322
  | .clock _ => 323
  | .notice c _ => 323 + c.code
  | .slot n _ => 340 + n
  | .listOp _ => 2452
  | .emitOp _ => 2453

/-- The writes that carry an item whole and so are carried once in an event, with the item as it stands
at the event's end (R165; log entry 8). Each product entry written is a write of its own (R144). -/
def TableWrite.whole : TableWrite → Bool
  | .product _ _ => false
  | .listOp _ => false
  | .emitOp _ => false
  | _ => true

/-- A write joins the group of its event (R165): in the place of an earlier write of the same whole item,
and otherwise as the newest. -/
def addWrite (w : TableWrite) (ws : List TableWrite) : List TableWrite :=
  if w.whole && ws.any (fun v => v.item == w.item) then
    ws.map (fun v => if v.item = w.item then w else v)
  else ws ++ [w]

/-- Writes are mirrored on a paired ACTIVE engine while its view is CURRENT, and while a copy runs those
to items already copied (R165, R169). -/
def MirrorUnit.mirrors (m : MirrorUnit) (w : TableWrite) : Bool :=
  m.straps.pair && m.role == .active &&
    (m.currency == .current ||
      (match m.copy with
       | some k => k.begun && w.item < k.items
       | none => false))

/-- A table write is noted for the event's group when it is mirrored (R165). -/
def MirrorUnit.note (w : TableWrite) (m : MirrorUnit) : MirrorUnit :=
  if m.mirrors w then { m with writes := addWrite w m.writes } else m

/-- A write to a case slot: its use count and its case (R165). -/
def State.setSlot (s : State) (n : Nat) (x : Slot) : State :=
  { s with slots := SMap.setD s.slots {} n x, mirror := s.mirror.note (.slot n x) }

/-- A write to the case record in a slot. -/
def State.setCase (s : State) (n : Nat) (c : CaseRecord) : State :=
  s.setSlot n { s.slotAt n with case := some c }

/-- A change of a feed entry. -/
def State.setFeed (s : State) (n : Nat) (x : Feed) : State :=
  { s with feeds := SMap.setD s.feeds {} n x
           mirror := if x = s.feedAt n then s.mirror else s.mirror.note (.feed n x) }

/-- A change of H and Vs. -/
def State.setHorizon (s : State) (x : Horizon) : State :=
  { s with horizon := x, mirror := if x = s.horizon then s.mirror else s.mirror.note (.horizon x) }

/-- A change of the list epoch and counter. -/
def State.setInjector (s : State) (x : Injector) : State :=
  { s with injector := x, mirror := if x = s.injector then s.mirror else s.mirror.note (.list x) }

/-- An adoption of a network time (R63, R64). -/
def State.setClock (s : State) (x : Clock) : State :=
  { s with clock := x, mirror := s.mirror.note (.clock x) }

/-- A product entry written (R99). -/
def State.setProduct (s : State) (code : Nat) (x : Product) : State :=
  { s with products := SMap.setD s.products {} code x, mirror := s.mirror.note (.product code x) }

/-- A change of the Policy Set (R101). -/
def State.setPolicy (s : State) (x : Policy) : State :=
  { s with policy := x, mirror := if x = s.policy then s.mirror else s.mirror.note (.policy x) }

/-- A change of a notice class: count, subject or mask (R152). -/
def State.setNotice (s : State) (c : NoticeClass) (x : NoticeEntry) : State :=
  { s with notices := { s.notices with entries := SMap.setD s.notices.entries {} c.code x }
           mirror := if x = s.noticeAt c then s.mirror else s.mirror.note (.notice c x) }

/-- A notice is counted: the pending count rises, saturating, and the last subject is replaced, whatever
the mask (R152). -/
def countNotice (c : NoticeClass) (sub : Subject) (s : State) : State :=
  s.setNotice c { s.noticeAt c with count := bump (s.noticeAt c).count, subject := some sub }

/-- The same, when `b` holds. -/
def countIf (b : Bool) (c : NoticeClass) (sub : Subject) (s : State) : State :=
  { s with notices := if b then (countNotice c sub s).notices else s.notices
           mirror := if b then (countNotice c sub s).mirror else s.mirror }

/-- What an operation does to the List Queue (R32). -/
def ListOp.apply (q : List ListEntry) : ListOp → List ListEntry
  | .append e => q ++ [e]
  | .withdraw e => q.eraseP (fun x => x.handle = e.handle ∧ x.kind = e.kind)
  | .remove e => q.eraseP (fun x => x.handle = e.handle ∧ x.kind = e.kind)
  | .replace e => q.map (fun x => if x.handle = e.handle then e else x)
  | .setMark e => q.map (fun x => if x.handle = e.handle ∧ x.kind = e.kind then { x with cancelled := true } else x)

/-- A write to the List Queue. -/
def State.doListOp (s : State) (op : ListOp) : State :=
  { s with listQueue := op.apply s.listQueue, mirror := s.mirror.note (.listOp op) }

/-- What an operation does to the Emission List (R33, R35). -/
def EmitOp.apply (q : List EmitEntry) : EmitOp → List EmitEntry
  | .append e => q ++ [e]
  | .remove e => q.eraseP (fun x => x.handle = e.handle ∧ x.kind = e.kind)
  | .setMark e => q.map (fun x => if x.handle = e.handle ∧ x.kind = e.kind then { x with renewed := true } else x)
  | .clearMark e => q.map (fun x => if x.handle = e.handle ∧ x.kind = e.kind then { x with renewed := false } else x)

/-- A write to the Emission List. -/
def State.doEmitOp (s : State) (op : EmitOp) : State :=
  { s with emissions := op.apply s.emissions, mirror := s.mirror.note (.emitOp op) }

/-! ### The Emission List (R33 to R35) -/

/-- The case's entry of a kind, if the Emission List holds one (R33). -/
def State.emission (s : State) (h : Handle) (k : EmitKind) : Option EmitEntry :=
  s.emissions.find? (fun e => e.handle = h ∧ e.kind = k)

/-- The entry's record is being transmitted (R35). -/
def State.emitting (s : State) (h : Handle) (k : EmitKind) : Bool :=
  match s.centre.tx with
  | .emission h' k' _ held => held && h' == h && k' == k
  | _ => false

/-- A transmission whose entry has left the list goes on, and its completion removes nothing (R34, R35). -/
def Tx.detach (h : Handle) (k : EmitKind) : Tx → Tx
  | .emission h' k' b held => .emission h' k' b (held && !(h' == h && k' == k))
  | t => t

/-- The case's entry of a kind leaves the Emission List, if it has one (R24, R35). -/
def removeEmission (h : Handle) (k : EmitKind) (s : State) : State :=
  match s.emission h k with
  | some e => { s.doEmitOp (.remove e) with centre := { s.centre with tx := s.centre.tx.detach h k } }
  | none => s

/-- The case's OFFER entry is placed (R33, R35): appended as the newest when it has none; otherwise it
keeps its place, and gains the renewed mark when its record is being transmitted. -/
def placeOffer (h : Handle) (s : State) : State :=
  match s.emission h .offer with
  | none => s.doEmitOp (.append ⟨h, .offer, false⟩)
  | some e => if s.emitting h .offer then s.doEmitOp (.setMark { e with renewed := true }) else s

/-! ### Slots: lookup, allocation, freeing (R20 to R24) -/

/-- The home set of a card (R20). -/
def homeSet (card : Nat) : Nat := card % 512

/-- The four ways of a set, in way order (R20). -/
def wayList (set : Nat) : List Nat := [set * 4, set * 4 + 1, set * 4 + 2, set * 4 + 3]

/-- The Spill List slots in slot order (R20). -/
def spillList : List Nat := List.range' spillBase 64

/-- The slot is live with a case of this card. -/
def State.holdsCard (s : State) (card n : Nat) : Bool :=
  match s.caseAt n with
  | some c => c.card == card
  | none => false

/-- The slot is free. -/
def State.isFree (s : State) (n : Nat) : Bool := (s.caseAt n).isNone

/-- The lookup of a card number (R21): the ways of its home set, then, when the set's spill count is not 0,
the Spill List. Where tables that an interrupted RESYNC PARTNER left hold a card twice, the lowest way is found, or
else the lowest Spill List slot (DESIGN CHOICE, log entry 46). -/
def lookup (card : Nat) (s : State) : Option Nat :=
  match (wayList (homeSet card)).find? (s.holdsCard card) with
  | some n => some n
  | none => if s.spillAt (homeSet card) = 0 then none else spillList.find? (s.holdsCard card)

/-- The slot a new case of this card takes (R22): the free way of its home set with the lowest number, or
else the free Spill List slot with the lowest number. -/
def allocate (card : Nat) (s : State) : Option Nat :=
  match (wayList (homeSet card)).find? s.isFree with
  | some n => some n
  | none => spillList.find? s.isFree

/-- The spill count of a set moved by the live state of a spill slot (R20). -/
def adjustSpill (n : Nat) (before after : Option CaseRecord) (spill : SMap Nat) : SMap Nat :=
  if n < spillBase then spill
  else
    let down := match before with
      | some c => SMap.setD spill 0 (homeSet c.card) (SMap.getD spill 0 (homeSet c.card) - 1)
      | none => spill
    match after with
    | some c => SMap.setD down 0 (homeSet c.card) (SMap.getD down 0 (homeSet c.card) + 1)
    | none => down

/-- A slot is given contents, the spill counts following it (R20, R166). -/
def State.fillSlot (s : State) (n : Nat) (x : Slot) : State :=
  { s.setSlot n x with spill := adjustSpill n (s.caseAt n) x.case s.spill }

/-- Freeing a slot (R24): the case goes, the use count rises modulo 256, the spill count of a spill slot's
home set falls, and every Emission List entry of the case leaves. -/
def freeSlot (n : Nat) (s : State) : State :=
  let h := s.handleAt n
  removeEmission h .settlement (removeEmission h .offer
    (s.fillSlot n { use := (s.slotAt n).use + 1, case := none }))

/-- The number of live cases (R22). -/
def State.liveCases (s : State) : Nat := (s.slots.filter (fun e => e.2.case.isSome)).length

/-- The number of live Spill List slots: the sum of the spill counts (R22). -/
def State.liveSpill (s : State) : Nat := (s.spill.map (·.2)).sum

/-! ### The walk (R75) -/

/-- A trigger of the walk on an ACTIVE engine (R75). -/
def trigger (s : State) : State :=
  { s with walk := if s.isActive then
                     (match s.walk with
                      | none => some ⟨0, false⟩
                      | some w => some { w with again := true })
                   else s.walk }

/-- A trigger, when `b` holds. -/
def triggerIf (b : Bool) (s : State) : State := { s with walk := if b then (trigger s).walk else s.walk }

/-! ### The Mirror Queue (R164, R165) -/

/-- A message takes the next mirror number and is placed in the Mirror Queue (R165). -/
def MirrorUnit.enqueue (p : Payload) (last copyStep : Bool) (m : MirrorUnit) : MirrorUnit :=
  { m with queue := m.queue ++ [.write ⟨m.next, last, copyStep, p⟩], next := m.next + 1 }

/-- A message of the Mirror Queue is in transmission (R164). -/
def MirrorUnit.sendingQueued (m : MirrorUnit) : Bool :=
  match m.tx with
  | some (.queued _) => true
  | _ => false

/-- Mirroring stops (R167): the view is STALE, the Mirror Queue is emptied save a message in transmission,
a copy ends, and where `report` holds and the link is UP a MIRROR STOP is to be sent. One that waits already stays,
also with the link DOWN (DESIGN CHOICE, log entry 37). -/
def MirrorUnit.stopped (report : Bool) (m : MirrorUnit) : MirrorUnit :=
  { m with currency := .stale
           queue := if m.sendingQueued then m.queue.take 1 else []
           copy := none
           writes := []
           stopDue := m.stopDue || (report && m.linkUp) }

/-- COPY BEGIN is placed when the Mirror Queue has a place for it, the view being STALE from then on
(R168); otherwise the copy waits for a place (log entry 20). -/
def MirrorUnit.copyBegin (m : MirrorUnit) : MirrorUnit :=
  if m.queue.length < 128 then
    { m.enqueue .copyBegin true true with currency := .stale, copy := some ⟨true, 0, false⟩ }
  else { m with copy := some ⟨false, 0, false⟩ }

/-- The next message in R164's order of precedence begins when the transmitter is free; a paired engine
alone sends (R162). -/
def MirrorUnit.pump (m : MirrorUnit) : MirrorUnit :=
  if m.straps.pair && m.tx.isNone then
    if m.stopDue then { m with tx := some .stop, stopDue := false, presenceDue := false }
    else
      match m.relayList with
      | a :: _ => { m with tx := some (.relay a true), presenceDue := false }
      | [] =>
        if m.yieldDue then { m with tx := some .yieldRequest, yieldDue := false, presenceDue := false }
        else
          match m.queue with
          | q :: _ => { m with tx := some (.queued q), presenceDue := false }
          | [] =>
            if m.presenceDue then { m with tx := some .presence, presenceDue := false } else m
  else m

/-! ### The Command Unit (R136 to R140, R170) -/

/-- The Command Unit holds a current command: one whose RESPONSE awaits a place (08, 8.3). -/
def CommandUnit.current (u : CommandUnit) : Bool :=
  u.waiting.any (fun a => match a with
    | .response _ => true
    | _ => false)

/-- The busy command whose work has not ended. -/
def CommandUnit.running (u : CommandUnit) : Option Busy := u.busy.filter (fun b => !b.ended)

/-- The work of the busy command ends: its COMPLETION is formed (R140). -/
def CommandUnit.complete (member : Fin 2) (success : Bool) (count : Nat) (detail : Option Detail)
    (u : CommandUnit) : CommandUnit :=
  match u.running with
  | some b =>
    { u with waiting := u.waiting ++ [.completion ⟨b.tag, b.work.code, member, success, count, detail⟩]
             busy := some { b with ended := true } }
  | none => u

/-- The COMPLETION is formed, and an outcome of FAILURE counts BUSY_DONE_FAIL with the tag (R140). -/
def formCompletion (success : Bool) (count : Nat) (detail : Option Detail) (s : State) : State :=
  countIf (!success && s.cu.running.isSome) .busyDoneFail (.tag ((s.cu.running.map (·.tag)).getD 0))
    { s with cu := s.cu.complete s.mirror.straps.member success count detail }

/-- The COMPLETION of a failed takeover: the count it carries is a free value (log entry 7). A YIELD REQUEST that
waits for the transmitter stays (DESIGN CHOICE, log entry 36). -/
def failTakeover (why : Detail) (s : State) : State :=
  { formCompletion false (Config.failedTakeoverCount s.draws) (some why) s with draws := s.draws + 1 }

/-- The Command Unit's next record has a place: in the Insert Queue of an ACTIVE engine (R15); in the
relay list of a STANDBY, where with the Pair Link DOWN it is lost and counts as placed (R132, R170). -/
def State.hasPlace (s : State) : Bool :=
  if s.isActive then s.insertQueue.length < 64
  else !s.mirror.linkUp || s.mirror.relayList.length < 8

/-- The work of the busy command begins (R138): the export visits from now on; the copy begins, or ends at
once with the link DOWN (R168); the YIELD REQUEST is to be sent (R171), unless a HANDOVER has come already (DESIGN
CHOICE, log entry 51); the Force pulse begins (R174). The work of a takeover is a STANDBY's alone (R142). -/
def beginWork (b : Busy) (s : State) : State :=
  let s1 : State := { s with cu := { s.cu with busy := some { b with begun := true } } }
  match b.work with
  | .exportCases _ _ _ _ => s1
  | .resync =>
    if s.mirror.linkUp then { s1 with mirror := s.mirror.copyBegin }
    else formCompletion false 0 (some .linkDown) s1
  | .takeover handed =>
    { s1 with mirror := { s.mirror with yieldDue := s.mirror.yieldDue || (!handed && !s.isActive) } }
  | .forcedTakeover _ =>
    { s1 with
      cu := { s.cu with busy := some { b with begun := true, work := .forcedTakeover s.mirror.currency } }
      mirror := if s.isActive then s.mirror
                else { s.mirror with group := [], forceOut := true, stage := .pulsing, holdOut := false } }

/-- What the placing of an answer brings about: the REPLY of a busy command begins its work (R138), and its
COMPLETION ends it (R140). -/
def answerPlaced (a : Answer) (s : State) : State :=
  match a with
  | .summary _ => s
  | .response _ =>
    (match s.cu.busy with
     | some b => if b.begun || b.ended then s else beginWork b s
     | none => s)
  | .completion _ => { s with cu := { s.cu with busy := none } }

/-- The Command Unit's oldest record goes to its place: the Insert Queue of an ACTIVE engine (R136), the
relay list of a STANDBY, or is lost with the Pair Link DOWN (R170). -/
def placeAnswer (s : State) : State :=
  match s.cu.waiting with
  | [] => s
  | a :: rest =>
    answerPlaced a
      { s with
        cu := { s.cu with waiting := rest }
        insertQueue := if s.isActive then s.insertQueue ++ [.answer a] else s.insertQueue
        mirror := if !s.isActive && s.mirror.linkUp then
                    { s.mirror with relayList := s.mirror.relayList ++ [a] }
                  else s.mirror }

/-- The Command Unit places its records, in the order in which they were formed, while it has places; at
most `k` of them. -/
def placeAnswers : Nat → State → State
  | 0, s => s
  | k + 1, s => if s.hasPlace && !s.cu.waiting.isEmpty then placeAnswers k (placeAnswer s) else s

/-- The Command Unit places what it can of what it has formed. A record that finds room does not wait
(R15). -/
def flushAnswers (s : State) : State := placeAnswers (s.cu.waiting.length + 2) s

/-! ### Stopping mirroring and ending an event -/

/-- Mirroring stops (R167): MIRROR_STALE is counted, and a copy that runs ends in FAILURE with the number of
items placed and the detail (R169). -/
def stopMirroring (why : Detail) (report : Bool) (s : State) : State :=
  let s1 := countNotice .mirrorStale (.line .pair) { s with mirror := s.mirror.stopped report }
  flushAnswers (match s.mirror.copy with
    | some k => formCompletion false k.items (some why) s1
    | none => s1)

/-- The messages a table write takes: several for a live case slot whose contents do not fit one frame (R165), one
for a free slot, whose use count does, and for every other write (log entry 5). -/
def TableWrite.payloads (w : TableWrite) : List Payload :=
  let n := match w with
    | .slot k x => if x.case.isSome then 1 + (Config.slotExtraParts k x).val else 1
    | _ => 1
  (List.range n).map (fun i => .write w i n)

/-- The messages of a group are placed in the Mirror Queue, the last with the last-of-group mark; when one
finds 128 messages there the queue has overflowed, mirroring stops and the rest is not placed (R165). -/
def placeGroup : List Payload → State → State
  | [], s => s
  | p :: rest, s =>
    if s.mirror.queue.length < 128 then
      placeGroup rest { s with mirror := s.mirror.enqueue p rest.isEmpty false }
    else stopMirroring .overflow true s

/-- The table writes of the event are placed as one group (R165). -/
def closeGroup (s : State) : State :=
  placeGroup (s.mirror.writes.flatMap TableWrite.payloads)
    { s with mirror := { s.mirror with writes := [] } }

/-- What ends every event: its group is placed, and the transmitters that are free begin what is due: the
Pair Link's next message (R164) and the lines' credit frames (R2). -/
def finish (s : State) : State :=
  let t := closeGroup s
  { t with mirror := t.mirror.pump
           station := t.station.startCredit t.isActive
           centre := t.centre.startCredit t.isActive }

/-- What a meaning answers. -/
abbrev Result : Type := Host.Outcome State Fault Refusal

/-- An event: when its condition holds it has its effect, and otherwise it does not take place and the state
stays as it is (log entry 1). -/
def event (ready : Bool) (effect : State → State) (s : State) : Result :=
  .next (if ready then finish (effect s) else s)

end Sys2Proof.Machine
end

