-- ==== Sys2Proof/Machine/Path.lean ====
section
/-! DEFINITION. What the Record Classifier shares among its rows (R8 to R10): the frame at the head of a
receive buffer, taking it into a forward queue or for the Command Unit, and the rows that do no more. -/

namespace Sys2Proof.Machine

/-- The oldest frame of a line's receive buffer, which an ACTIVE engine's classifier takes (R8, R10). -/
def State.head (s : State) (l : Line) : Option Frame := if s.isActive then (s.port l).rx.head? else none

/-- A frame leaves the receive buffer of a line (R8). -/
def Port.take (p : Port) : Port := { p with rx := p.rx.tail }

/-- The oldest frame of the Station buffer is taken, and goes into the Upward Forward Queue as `f`
(R8, R11). -/
def takeUp (f : Frame) (s : State) : State :=
  { s with station := s.station.take, upQueue := s.upQueue ++ [f] }

/-- The oldest frame of the Centre buffer is taken into the Downward Forward Queue (R8, R11). -/
def takeDown (f : Frame) (s : State) : State :=
  { s with centre := s.centre.take, downQueue := s.downQueue ++ [f] }

/-- The oldest frame of the Centre buffer is taken and consumed, which an ACTIVE engine counts (R10,
R18). -/
def takeControl (s : State) : State :=
  { s with centre :=
      { s.centre.take with
        counters := if s.isActive then
            { s.centre.counters with consumed := bump32 s.centre.counters.consumed }
          else s.centre.counters } }

/-- The Upward Forward Queue can accept a frame (R8). -/
def State.upRoom (s : State) : Bool := s.upQueue.length < 256

/-- The Downward Forward Queue can accept a frame (R8). -/
def State.downRoom (s : State) : Bool := s.downQueue.length < 128

/-- The frame is one that R9 forwards with no action, or that R10 does. -/
def forwardedAsIs (straps : Straps) (l : Line) (f : Frame) : Bool :=
  match l with
  | .station => !isCardKind f.kind && f.kind != kindSweep && f.kind != kindListack
  | .centre => routing straps f == .onward && f.kind != kindTime

/-- FORWARD UNCHANGED (R9, R10). -/
def execForwardUnchanged (l : Line) (s : State) : Result :=
  match s.head l with
  | some f =>
    (match l with
     | .station => event (forwardedAsIs s.mirror.straps .station f && s.upRoom) (takeUp f) s
     | .centre => event (forwardedAsIs s.mirror.straps .centre f && s.downRoom) (takeDown f) s)
  | none => .next s

/-- CONTROL FOR PARTNER (R10, R131): consumed and ignored. -/
def execControlForPartner (s : State) : Result :=
  match s.head .centre with
  | some f => event (routing s.mirror.straps f == .ignored) takeControl s
  | none => .next s

end Sys2Proof.Machine
end

