-- ==== Sys2Proof/Machine/Control.lean ====
section
/-! DEFINITION. What the rows of the management commands share (08_management_commands.md, 8.1 to 8.5): the
CONTROL record at the head of the Centre buffer, the common conditions, the end of a load session, and the
RESPONSE (R131 to R136, R139, R142, R145). -/

namespace Sys2Proof.Machine

/-- The CONTROL record at the head of the Centre buffer that is the engine's own to execute (R10, R131,
R132). -/
def State.control (s : State) : Option Control :=
  match s.centre.rx with
  | f :: _ =>
    if (if s.isActive then routing s.mirror.straps f == .own else namesMember s.mirror.straps f) then
      some (Control.ofBody f.body)
    else none
  | [] => none

/-- The Command Unit takes a CONTROL record: it holds no current command (R8, R136), and no takeover drain
runs (R142, R172). -/
def State.takesCommand (s : State) : Bool := !s.cu.current && s.mirror.drain.isNone

/-- Which roles execute a command (R142). -/
inductive Admission where
  | either
  | activeOnly
  | standbyOnly
  deriving DecidableEq, Repr

/-- The reason for which the role does not admit a command (R142). -/
def Admission.fault (adm : Admission) (active : Bool) : Option Reason :=
  match adm, active with
  | .activeOnly, false => some .notActive
  | .standbyOnly, true => some .notStandby
  | _, _ => none

/-- The first of the orders 3 to 5 of R134 that fails. -/
def commonFault (adm : Admission) (busy : Bool) (c : Control) (s : State) : Option Reason :=
  if 3 ≤ c.target then some .badField
  else
    match adm.fault s.isActive with
    | some why => some why
    | none => if busy && s.cu.busy.isSome then some .busy else none

/-- What the execution of a command leaves and answers: the state, the SUMMARY that READ CASE forms, and the
outcome. -/
structure Executed where
  state : State
  summary : Option Summary := none
  verdict : Verdict
  deriving DecidableEq, Repr

/-- The command is refused: it takes no effect (R133). -/
def refuse (why : Reason) (s : State) : Executed := { state := s, verdict := .reject why }

/-- The command is accepted (R133). -/
def accept (s : State) (r : Reply) : Executed := { state := s, verdict := .reply r }

/-- The code of PRODUCT DATA, which alone does not end a load session (R145). -/
def codeProductData : Byte := 0x23#8

/-- The load session ends (R145). -/
def endSession (ends : Bool) (s : State) : State :=
  { s with cu := { s.cu with session := if ends then none else s.cu.session } }

/-- The RESPONSE is formed, after the SUMMARY where there is one, and both go to their places as there is
room (R36, R133, R136). -/
def respond (c : Control) (x : Executed) : State :=
  flushAnswers
    { x.state with
      cu := { x.state.cu with
        waiting := x.state.cu.waiting ++ x.summary.toList.map .summary ++
          [.response ⟨c.tag, c.code, x.state.mirror.straps.member, x.verdict⟩] } }

/-- The execution of a command whose code has passed: the common conditions, and then its own. -/
def executed (adm : Admission) (busy : Bool) (own : Control → State → Executed) (c : Control) (s : State) :
    Executed :=
  match commonFault adm busy c s with
  | some why => refuse why s
  | none => own c s

/-- The command at the head of the buffer carries this code, and the Command Unit takes it. -/
def State.commandReady (s : State) (code : Byte) (c : Control) : Bool :=
  c.codeFault.isNone && c.code == code && s.takesCommand

/-- The event in which a command of this code is executed (R134, R136). -/
def runCommand (code : Byte) (adm : Admission) (busy : Bool) (own : Control → State → Executed) (s : State) :
    Result :=
  match s.control with
  | some c =>
    event (s.commandReady code c)
      (fun s => respond c (executed adm busy own c (endSession (code != codeProductData) (takeControl s)))) s
  | none => .next s

/-- CONTROL CODE REJECT (R134, R145, R179): a record that fails order 1 or 2. -/
def execControlCodeReject (s : State) : Result :=
  match s.control with
  | some c =>
    (match c.codeFault with
     | some why =>
       event s.takesCommand (fun s => respond c (refuse why (endSession true (takeControl s)))) s
     | none => .next s)
  | none => .next s

/-- The reason for which a handle is refused (R23). -/
def State.handleFault (s : State) (h : Handle) : Option Reason :=
  if slotLimit ≤ h.slot then some .badField
  else if (s.named h).isNone then some .staleHandle
  else none

/-- What a command does with the case its handle names, the handle being checked first (R23). -/
def withHandle (h : Handle) (act : CaseRecord → Executed) (s : State) : Executed :=
  if slotLimit ≤ h.slot then refuse .badField s
  else
    match s.named h with
    | some c => act c
    | none => refuse .staleHandle s

end Sys2Proof.Machine
end

