-- ==== Sys2Proof/Machine/Restoration.lean ====
section
/-! DEFINITION. The Restoration Calculator (06_restoration_arithmetic.md, 6.3): an offer computed from a case,
the Product Table and the Policy Set (R104 to R111). -/

namespace Sys2Proof.Machine

/-- The report day Dr (R105). -/
def reportDay (p : Policy) (tr : Nat) : Nat :=
  if p.serviceDayOffset ≤ tr then (tr - p.serviceDayOffset) / 86400 else 0

/-- The late credit L (R105). -/
def lateCreditOf (c : CaseRecord) : Nat := min maxSum (c.pendingCredit + c.tally.lateCredit)

/-- The sum of pending and late credit is cut short (R105). -/
def lateCreditCut (c : CaseRecord) : Bool := maxSum < c.pendingCredit + c.tally.lateCredit

/-- The days from a start to an end, both included, 0 when there are none (R106). -/
def daySpan (start stop : Int) : Nat := (stop - start + 1).toNat

/-- The span of days that a dated contract has left from the report day on (R106). -/
def datedExtent (dr : Nat) (e : Product) (k : Contract) : Nat :=
  let start : Int := match k.validFrom with
    | some d => max (d : Int) dr
    | none => dr
  let stop : Int := match k.validTo with
    | some d => d
    | none => ((k.validFrom.getD dr : Nat) : Int) + e.total - 1
  daySpan start stop

/-- The remaining extent of a contract before the cap (R106). -/
def rawExtent (dr : Nat) (e : Product) (k : Contract) : Nat :=
  match e.kind with
  | .none => 0
  | .calendar => datedExtent dr e k
  | .rolling => if k.validFrom.isSome then datedExtent dr e k else e.total
  | .carnet => k.trips.getD 0

/-- The remaining extent rem, capped at the product's total (R106). -/
def extent (dr : Nat) (e : Product) (k : Contract) : Nat := min (rawExtent dr e k) e.total

/-- The credit of a CONVERT contract (R108). A credit that the convert fee would take below 0 is 0. -/
def convertCredit (p : Policy) (dr : Nat) (e : Product) (k : Contract) : Nat :=
  let raw := k.price.getD e.listPrice * extent dr e k / e.total
  (raw - raw % p.refundStep) - e.convertFee

/-- What becomes of a contract in an offer (R106, R107). -/
inductive Treatment where
  | expired
  | carried (c : CarriedContract)
  | converted (credit : Nat)
  | dropped
  deriving DecidableEq, Repr

/-- The treatment of the contract in a slot by its product entry (R106, R107). -/
def treat (p : Policy) (dr : Nat) (e : Product) (slot : Nat) (k : Contract) : Treatment :=
  if e.kind = .none then .dropped
  else if extent dr e k = 0 then .expired
  else match e.restore with
    | .inKind => .carried ⟨slot, k.product, k.validFrom, k.validTo,
        if e.kind = .carnet then some (extent dr e k) else k.trips⟩
    | .convert => .converted (convertCredit p dr e k)
    | .drop => .dropped

/-- The treatments of all the contracts of a case, in ascending order of slot. -/
def treatments (entry : Nat → Product) (p : Policy) (c : CaseRecord) : List Treatment :=
  c.contracts.map (fun x => treat p (reportDay p c.tr) (entry x.2.product) x.1 x.2)

/-- The contract carried in kind, if it is one. -/
def Treatment.carried? : Treatment → Option CarriedContract
  | .carried c => some c
  | _ => none

/-- The credit of a converted contract, 0 for any other. -/
def Treatment.credit : Treatment → Nat
  | .converted n => n
  | _ => 0

/-- The contract was converted. -/
def Treatment.isConverted : Treatment → Bool
  | .converted _ => true
  | _ => false

/-- The conversion total C (R108). -/
def conversionTotal (ts : List Treatment) : Nat := (ts.map Treatment.credit).sum

/-- The fee collected Fc for a value that the restoration has to give (R109). -/
def feeCollected (p : Policy) (waived : Bool) (base : Int) : Int :=
  min (if waived then 0 else (p.replacementFee : Int)) (max 0 base)

/-- The purse value P of a gross value (R110). -/
def purseOf (p : Policy) (g : Int) : Int :=
  if (p.purseCeiling : Int) < g then p.purseCeiling
  else if g < -(p.overdraftLimit : Int) then -(p.overdraftLimit : Int)
  else g

/-- The offer of a case, numbered `number` (R104 to R110, R115). -/
def computeOffer (entry : Nat → Product) (p : Policy) (number : Nat) (c : CaseRecord) : HeldOffer :=
  let ts := treatments entry p c
  let base : Int := c.anchor.balance + lateCreditOf c + conversionTotal ts
  let fee := feeCollected p c.feeWaived base
  let g := base - fee
  { number := number
    reportDay := reportDay p c.tr
    anchorSeq := c.anchor.seq
    anchorBalance := c.anchor.balance
    anchorSource := c.anchor.source
    lateCredit := lateCreditOf c
    conversion := conversionTotal ts
    fee := fee.toNat
    purse := purseOf p g
    excess := (g - p.purseCeiling).toNat
    debt := (-(p.overdraftLimit : Int) - g).toNat
    inKind := ts.filterMap Treatment.carried?
    converted := ts.countP Treatment.isConverted
    dropped := ts.countP (fun t => t == .dropped)
    expired := ts.countP (fun t => t == .expired)
    ceilingClamped := decide ((p.purseCeiling : Int) < g)
    floorClamped := decide (g < -(p.overdraftLimit : Int)) }

/-- The next offer number, staying at 65,535 once there (R25, R104). -/
def nextOffer (n : Nat) : Nat := min 65535 (n + 1)

/-- The case with a new offer computed into it (R104, R105). -/
def withOffer (entry : Nat → Product) (p : Policy) (c : CaseRecord) : CaseRecord :=
  { c with
    offerNumber := nextOffer c.offerNumber
    offer := some (computeOffer entry p (nextOffer c.offerNumber) c)
    flags := { c.flags with lateCreditCapped := c.flags.lateCreditCapped || lateCreditCut c } }

/-- Some contract names a product entry of kind NONE (R111). -/
def namesUnknown (entry : Nat → Product) (c : CaseRecord) : Bool :=
  c.contracts.any (fun x => (entry x.2.product).kind == .none)

end Sys2Proof.Machine
end

