-- ==== Sys2Proof/Machine/Progress.lean ====
section
/-! DEFINITION. The Network Clock and the Progress Unit (04_time_feeds_and_progress.md): TIME, SWEEP and
LISTACK records, the clock's tick, H and Vs, anchoring, stalling, settlement, retention, and the walk. -/

namespace Sys2Proof.Machine

/-! ### Time (R63 to R65) -/

/-- The network time crosses a minute boundary (R65). -/
def crossesMinute (t1 t2 : Nat) : Bool := t1 / 60 < t2 / 60

/-- CLOCK TICK (R63, R65): a set clock advances by a second, stopping at its maximum. -/
def execClockTick (s : State) : Result :=
  event s.clock.isSet
    (fun s =>
      triggerIf (crossesMinute s.clock.time (satAdd max32 s.clock.time 1))
        { s with clock := { s.clock with time := satAdd max32 s.clock.time 1 } }) s

/-- The time a TIME body carries; what a body that is not 4 bytes carries is a free value (log entry 6). -/
def timeCarried (bs : List Byte) : Option Nat :=
  match readTime bs with
  | some t => some t
  | none => (Config.oddTime bs).map BitVec.toNat

/-- The adoption of a carried time (R64, R65). -/
def adoptTime (t : Nat) (s : State) : State :=
  if s.clock.isSet = false ∨ s.clock.time < t then
    triggerIf (crossesMinute s.clock.time t) (s.setClock ⟨t, true⟩)
  else countIf (decide (t < s.clock.time)) .timeRegress (.line .centre) s

/-- TIME (R64). -/
def execTime (s : State) : Result :=
  match s.head .centre with
  | some f =>
    event (f.kind == kindTime && s.downRoom)
      (fun s =>
        match timeCarried f.body with
        | some t => adoptTime t (takeDown f s)
        | none => takeDown f s) s
  | none => .next s

/-! ### Feeds (R66 to R71) -/

/-- The ACTIVE feeds. -/
def State.activeFeeds (s : State) : List Feed := (s.feeds.map (·.2)).filter (·.active)

/-- The least of some numbers, or `d` when there are none. -/
def leastOr (d : Nat) : List Nat → Nat
  | [] => d
  | a :: rest => rest.foldl min a

/-- H and Vs over the ACTIVE feeds (R71). -/
def State.minima (s : State) : Horizon :=
  ⟨leastOr s.horizon.h (s.activeFeeds.map (·.sweep)), leastOr s.horizon.vs (s.activeFeeds.map (·.cleared))⟩

/-- H and Vs are recomputed, and a rise of either triggers the walk (R71, R75). Where tables that an interrupted
RESYNC PARTNER left hold an ACTIVE feed below H or Vs, the lower minimum is taken (DESIGN CHOICE, log entry 42). -/
def recompute (s : State) : State :=
  triggerIf (decide (s.horizon.h < s.minima.h) || decide (s.horizon.vs < s.minima.vs))
    (s.setHorizon s.minima)

/-- Clearing of a feed's ring (R68). -/
def Feed.clearRing (f : Feed) : Feed :=
  match (f.ring.filter (fun a => a.time ≤ f.sweep)).map (·.version) with
  | [] => f
  | a :: rest =>
    { f with cleared := max f.cleared (rest.foldl max a)
             ring := f.ring.filter (fun e => rest.foldl max a < e.version) }

/-- The highest version a ring holds, 0 when it is empty. -/
def Feed.highest (f : Feed) : Nat := (f.ring.map (·.version)).foldl max 0

/-- An accepted LISTACK enters the ring, the newest entry of a full one being coalesced (R70). -/
def Feed.enter (a : Ack) (f : Feed) : Feed :=
  { f with ring := if f.ring.length < 8 then f.ring ++ [a] else f.ring.dropLast ++ [a] }

/-- A record of an ABSENT feed is counted (R42, R67, R69). -/
def countUnadmitted (n : Nat) (s : State) : State :=
  countNotice .unadmittedFeed (.feed n)
    (s.setFeed n { s.feedAt n with unadmitted := bump (s.feedAt n).unadmitted })

/-- A time clamped to the network time plus FutureSlack (R67, R72). -/
def State.clampTime (s : State) (t : Nat) : Nat := min t (s.clock.time + s.policy.futureSlack)

/-- What a SWEEP of feed `n` and time `t` does (R67). -/
def sweepEffect (n t : Nat) (s : State) : State :=
  if 63 < n then s
  else if (s.feedAt n).active = false then countUnadmitted n s
  else if s.clampTime t ≤ (s.feedAt n).sweep then
    countNotice .sweepRegress (.feed n)
      (s.setFeed n { s.feedAt n with regresses := bump (s.feedAt n).regresses })
  else recompute (s.setFeed n ({ s.feedAt n with sweep := s.clampTime t } : Feed).clearRing)

/-- SWEEP (R67, R178). -/
def execSweep (s : State) : Result :=
  match s.head .station with
  | some f =>
    event (f.kind == kindSweep && s.upRoom)
      (fun s =>
        match readSweep f.body with
        | some (n, t) => sweepEffect n t (takeUp f s)
        | none => takeUp f s) s
  | none => .next s

/-- A LISTACK is ignored (R69). -/
def ignoreAck (n : Nat) (s : State) : State :=
  countNotice .ackIgnored (.feed n)
    (s.setFeed n { s.feedAt n with acksIgnored := bump (s.feedAt n).acksIgnored })

/-- What a LISTACK does (R69, R70). -/
def listackEffect (a : Listack) (s : State) : State :=
  let v := min a.version s.injector.counter
  let f := s.feedAt a.feed
  if 63 < a.feed then s
  else if f.active = false then countUnadmitted a.feed s
  else if s.injector.epoch ≠ some a.epoch then ignoreAck a.feed s
  else if v ≤ f.highest ∨ v ≤ f.cleared then ignoreAck a.feed s
  else if a.time ≤ f.sweep then recompute (s.setFeed a.feed (f.enter ⟨v, a.time⟩).clearRing)
  else s.setFeed a.feed (f.enter ⟨v, a.time⟩)

/-- LISTACK (R69, R178). -/
def execListack (s : State) : Result :=
  match s.head .station with
  | some f =>
    event (f.kind == kindListack && s.upRoom)
      (fun s =>
        match readListack f.body with
        | some a => listackEffect a (takeUp f s)
        | none => takeUp f s) s
  | none => .next s

/-! ### Anchoring (R79, R80) -/

/-- The place of a window at index `i`, by its sequence number (R44). -/
def Window.at (w : Window) (i : Nat) : Option WinSlot :=
  if i < 32 then SMap.look w.slots (w.base + BitVec.ofNat 16 i).toNat else none

/-- The flags after the window check (R79). -/
def windowChecked (c : CaseRecord) : CaseFlags :=
  match c.anchor.source with
  | .opening => c.flags
  | .record =>
    let d := (c.anchor.seq - c.window.base).toNat
    if d < 32 then
      { c.flags with hole := c.flags.hole || !((List.range (d + 1)).all (fun i => (c.window.at i).isSome)) }
    else { c.flags with windowPassed := true }

/-- The flags after the product check (R80, R111). -/
def productChecked (entry : Nat → Product) (c : CaseRecord) : CaseFlags :=
  { windowChecked c with
    unknownProduct := (windowChecked c).unknownProduct || namesUnknown entry c }

/-- The case after the anchoring step: HELD by a holding flag, or ANCHORED with its offer (R79, R80). -/
def anchored (entry : Nat → Product) (p : Policy) (c : CaseRecord) : CaseRecord :=
  let c1 := { c with flags := productChecked entry c }
  if c1.flags.holding then { c1 with phase := .held } else withOffer entry p { c1 with phase := .anchored }

/-- A case's record is written where it has changed. -/
def keepCase (n : Nat) (before after : CaseRecord) (s : State) : State :=
  if after = before then s else s.setCase n after

/-- The anchoring step on the case of slot `n`, read as `c` (R79, R80). -/
def anchorCase (n : Nat) (c : CaseRecord) (s : State) : State :=
  let c' := anchored s.productAt s.policy c
  if c'.phase = .held then countNotice .caseHeld (.handle (s.handleAt n)) (s.setCase n c')
  else placeOffer (s.handleAt n) (s.setCase n c')

/-! ### Settlement, stall and retention (R81, R82, R120) -/

/-- The settlement step (R120). The SETTLEMENT entry is appended also where part-copied tables hold one of its handle
already (DESIGN CHOICE, log entry 52). -/
def settleCase (n : Nat) (c : CaseRecord) (s : State) : State :=
  countNotice .caseSettled (.handle (s.handleAt n))
    ((s.setCase n { c with settleTime := some s.clock.time, phase := .settled }).doEmitOp
      (.append ⟨s.handleAt n, .settlement, false⟩))

/-- The stall deadline has passed and the case has not been stalled before (R81). -/
def State.stallDue (s : State) (c : CaseRecord) : Bool :=
  decide (c.tr + s.policy.settleLimit * 86400 ≤ s.clock.time) && !c.flags.stalledOnce

/-- The case enters STALLED (R27, R81). -/
def stallCase (source : StalledFrom) (n : Nat) (c : CaseRecord) (s : State) : State :=
  countNotice .caseStalled (.handle (s.handleAt n))
    (s.setCase n { c with phase := .stalled source, flags := { c.flags with stalledOnce := true } })

/-- The tally finality step (R78). -/
def finalized (vs : Nat) (c : CaseRecord) : CaseRecord :=
  match c.listVersion with
  | some lv => if lv ≤ vs then { c with flags := { c.flags with tallyFinal := true } } else c
  | none => c

/-- The case's SETTLEMENT has been emitted (R34). -/
def State.emitted (s : State) (h : Handle) (c : CaseRecord) : Bool :=
  c.phase == .settled && (s.emission h .settlement).isNone

/-- The retention step applies (R82). -/
def State.retentionDue (s : State) (h : Handle) (c : CaseRecord) : Bool :=
  s.emitted h c && s.policy.retentionDays != 0 &&
    (match c.settleTime with
     | some t => decide (t + s.policy.retentionDays * 86400 ≤ s.clock.time)
     | none => false)

/-- A walk visit to the live case of slot `n` (R77). -/
def visitCase (n : Nat) (c : CaseRecord) (s : State) : State :=
  let f := finalized s.horizon.vs c
  match c.phase with
  | .opening | .voiding => s
  | .settled => if s.retentionDue (s.handleAt n) c then freeSlot n s else s
  | .anchored | .held => keepCase n c f s
  | .listed =>
    if c.tr ≤ s.horizon.h then anchorCase n f s
    else if s.stallDue c then stallCase .listed n f s
    else keepCase n c f s
  | .stalled .listed => if c.tr ≤ s.horizon.h then anchorCase n f s else keepCase n c f s
  | .bound =>
    if f.flags.tallyFinal then settleCase n f s
    else if s.stallDue c then stallCase .bound n f s
    else keepCase n c f s
  | .stalled .bound => if f.flags.tallyFinal then settleCase n f s else keepCase n c f s

/-- The walk after a visit (R76). -/
def Walk.advance (w : Walk) : Option Walk :=
  if w.position < 2111 then some { w with position := w.position + 1 }
  else if w.again then some ⟨0, false⟩
  else none

/-- What a visit does to the slot it visits (R76). -/
def visitSlot (n : Nat) (s : State) : State :=
  match s.caseAt n with
  | some c => visitCase n c s
  | none => s

/-- WALK VISIT (R76, R77). -/
def execWalkVisit (s : State) : Result :=
  match s.walk with
  | some w =>
    event s.isActive
      (fun s => visitSlot w.position { s with walk := w.advance }) s
  | none => .next s

end Sys2Proof.Machine
end

