-- ==== Sys2Proof/Machine/ListChannel.lean ====
section
/-! DEFINITION. The List Injector (05_the_urgent_list_channel.md): forming a delta, its injection, and its
being cut (R85 to R91, R94). -/

namespace Sys2Proof.Machine

/-- The List Injector has a delta waiting (R86). -/
def State.deltaWaiting (s : State) : Bool :=
  s.isActive && s.mirror.drain.isNone && !s.listQueue.isEmpty &&
    (match s.station.tx with
     | .delta _ => false
     | _ => true) &&
    (s.injector.epoch.isSome || s.clock.isSet)

/-- The version a delta takes: the counter plus one, or the counter itself at its maximum (R86, R91). -/
def State.nextVersion (s : State) : Nat := satAdd max32 s.injector.counter 1

/-- The delta formed from an entry as its transmission begins (R86). -/
def formDelta (e : ListEntry) (s : State) : Delta :=
  { handle := e.handle
    kind := e.kind
    epoch := s.injector.epoch.getD s.clock.time
    version := s.nextVersion
    card := (s.named e.handle).map (·.card) }

/-- The removal version of the case of a handle becomes `v` (R89, R90). -/
def setRemoval (h : Handle) (v : Option Nat) (s : State) : State :=
  match s.named h with
  | some c => s.setCase h.slot { c with removalVersion := v }
  | none => s

/-- What a delta's beginning does to its case: a REMOVE records its version (R86, R89). -/
def beginDelta (d : Delta) (s : State) : State :=
  match d.kind with
  | .add => s
  | .remove => setRemoval d.handle (some d.version) s

/-- The List Queue's entry for a delta in transmission. -/
def State.entryOf (s : State) (h : Handle) (k : ListKind) : Option ListEntry :=
  s.listQueue.find? (fun e => e.handle = h ∧ e.kind = k)

/-- What a delta's ending without completing does (R31, R90). -/
def cutDelta (d : Delta) (s : State) : State :=
  match d.kind with
  | .remove => setRemoval d.handle none s
  | .add =>
    match s.entryOf d.handle .add with
    | some e => if e.cancelled then s.doListOp (.replace ⟨d.handle, .remove, false⟩) else s
    | none => s

/-- Whatever the Station transmitter was sending is cut, with what that does to a delta (R5, R90). -/
def cutStationDelta (s : State) : State :=
  match s.station.tx with
  | .delta d => cutDelta d s
  | _ => s

/-- A record inserted on a line completes: its counter rises and the transmitter is idle (R4, R18). -/
def Port.insertedDone (p : Port) : Port :=
  { p with tx := .idle, counters := { p.counters with inserted := bump32 p.counters.inserted } }

/-- The counter and the epoch take what a delta carried (R87, R89). -/
def injectVersion (d : Delta) (s : State) : State :=
  s.setInjector { epoch := some (s.injector.epoch.getD d.epoch), counter := d.version }

/-- The case of an ADD whose injection was not cancelled, LISTED and anchored at once where H has reached its
report time (R87, R88). -/
def listCase (n : Nat) (v : Nat) (c : CaseRecord) (s : State) : State :=
  let c1 := { c with listVersion := some v, phase := .listed }
  if c.tr ≤ s.horizon.h then anchorCase n c1 s else s.setCase n c1

/-- What the injection of an ADD does to its case and, where the ADD was cancelled, to the List Queue (R31,
R87). A live case that is not in OPENING, as only an interrupted RESYNC PARTNER can leave it, is listed like one that
is (DESIGN CHOICE, log entry 33). -/
def addToCase (d : Delta) (cancelled : Bool) (s : State) : State :=
  match s.named d.handle with
  | some c =>
    if cancelled then
      (s.setCase d.handle.slot { c with listVersion := some d.version }).doListOp
        (.append ⟨d.handle, .remove, false⟩)
    else listCase d.handle.slot d.version c s
  | none => s

/-- The injection of an ADD (R87). -/
def injectAdd (d : Delta) (s : State) : State :=
  let s1 := injectVersion d { s with station := s.station.insertedDone }
  match s.entryOf d.handle .add with
  | some e => addToCase d e.cancelled (s1.doListOp (.remove e))
  | none => addToCase d false s1

/-- ADD INJECTED (R87, R88). -/
def execAddInjected (s : State) : Result :=
  match s.station.tx with
  | .delta d => event (d.kind == .add) (injectAdd d) s
  | _ => .next s

/-- The injection of a REMOVE (R89); of a live case that is not in VOIDING, log entry 33. -/
def injectRemove (d : Delta) (s : State) : State :=
  let s1 := injectVersion d { s with station := s.station.insertedDone }
  let s2 := s1.doListOp (.remove ⟨d.handle, .remove, false⟩)
  match s2.named d.handle with
  | some _ => freeSlot d.handle.slot s2
  | none => s2

/-- REMOVE INJECTED (R89). -/
def execRemoveInjected (s : State) : Result :=
  match s.station.tx with
  | .delta d => event (d.kind == .remove) (injectRemove d) s
  | _ => .next s

end Sys2Proof.Machine
end

