-- ==== Sys2Proof/Machine/Cases.lean ====
section
/-! DEFINITION. The commands on cases: OPEN CASE, CANCEL CASE, ACCEPT CASE, BIND CASE, FORCE PROGRESS, CLOSE CASE
and READ CASE (R28 to R36, R112, R113, R117, R118, R124, R125, R127). -/

namespace Sys2Proof.Machine

/-! ### OPEN CASE (R28, R29) -/

/-- The contract sub-records of a new case (R29). -/
def openContracts (seq : Count16) (cs : List OpenContract) : SMap Contract :=
  cs.foldl (fun m c => SMap.put m c.slot ⟨c.product, c.price, c.validFrom, c.validTo, c.trips, seq⟩) []

/-- The record of a new case (R29). -/
def newCase (p : OpenParams) : CaseRecord :=
  { card := p.card
    phase := .opening
    operator := p.operator
    tr := p.tr
    knownSeq := p.knownSeq
    knownBalance := p.knownBalance
    pendingCredit := p.pendingCredit
    feeWaived := p.feeWaived == 1
    anchor := ⟨p.knownSeq, p.knownBalance, none, .opening⟩
    listVersion := none
    removalVersion := none
    window := ⟨p.knownSeq + 1, []⟩
    contracts := openContracts p.knownSeq p.contracts
    tally := {}
    flags := {}
    offerNumber := 0
    offer := none
    replacement := none
    bindTime := none
    settleTime := none
    excluded := 0 }

/-- The slot of an accepted OPEN CASE is filled, and its ADD entry appended (R29), also where part-copied tables hold an
entry of its handle already (DESIGN CHOICE, log entry 52). -/
def openAt (n : Nat) (p : OpenParams) (s : State) : State :=
  (s.fillSlot n { s.slotAt n with case := some (newCase p) }).doListOp (.append ⟨s.handleAt n, .add, false⟩)

/-- OPEN CASE after the common conditions: the conditions 2 to 7 of R28 in order. -/
def openCase (c : Control) (s : State) : Executed :=
  if !s.clock.isSet then refuse .timeUnset s
  else
    match (readOpen c.params).filter (·.valid) with
    | none => refuse .badField s
    | some p =>
      if s.clock.time + s.policy.futureSlack < p.tr then refuse .futureTime s
      else if (lookup p.card s).isSome then refuse .duplicateCase s
      else if max32 ≤ s.injector.counter then refuse .listExhausted s
      else
        match allocate p.card s with
        | none => refuse .tableFull (countNotice .tableFullSeen (.homeSet (homeSet p.card)) s)
        | some n => accept (openAt n p s) (.opened (s.handleAt n))

/-- OPEN CASE (R28). -/
def execOpenCase (s : State) : Result := runCommand 0x01 .activeOnly false openCase s

/-! ### CANCEL CASE (R30, R31) -/

/-- The delta of this handle and kind is in transmission. -/
def State.sendingDelta (s : State) (h : Handle) (k : ListKind) : Bool :=
  match s.station.tx with
  | .delta d => d.handle == h && d.kind == k
  | _ => false

/-- A listed case goes to VOIDING with a REMOVE entry, its OFFER entry leaving (R30, R35). The REMOVE is appended also
where part-copied tables hold an entry of its handle already (DESIGN CHOICE, log entry 52). -/
def voidListed (h : Handle) (x : CaseRecord) (s : State) : State :=
  removeEmission h .offer
    ((s.setCase h.slot { x with phase := .voiding }).doListOp (.append ⟨h, .remove, false⟩))

/-- CANCEL CASE on a case in OPENING (R30, R31). -/
def cancelOpening (h : Handle) (x : CaseRecord) (s : State) : Executed :=
  if s.sendingDelta h .add then
    accept ((s.setCase h.slot { x with phase := .voiding }).doListOp (.setMark ⟨h, .add, true⟩))
      (.cancelled h (some .voiding))
  else accept (freeSlot h.slot (s.doListOp (.withdraw ⟨h, .add, false⟩))) (.cancelled h none)

/-- CANCEL CASE after the common conditions (R30). -/
def cancelCase (c : Control) (s : State) : Executed :=
  match ofLength 3 c.params with
  | none => refuse .badField s
  | some bs =>
    withHandle (readHandle bs)
      (fun x =>
        match x.phase with
        | .opening => cancelOpening (readHandle bs) x s
        | .listed | .anchored | .held | .stalled .listed =>
          accept (voidListed (readHandle bs) x s) (.cancelled (readHandle bs) (some .voiding))
        | .bound | .settled | .stalled .bound | .voiding => refuse .wrongPhase s) s

/-- CANCEL CASE (R30). -/
def execCancelCase (s : State) : Result := runCommand 0x02 .activeOnly false cancelCase s

/-! ### ACCEPT CASE (R112, R113) -/

/-- A HELD case released: the six holding flags cleared, ANCHORED, with a new offer (R113). -/
def released (s : State) (x : CaseRecord) : CaseRecord :=
  withOffer s.productAt s.policy { x with flags := x.flags.released, phase := .anchored }

/-- ACCEPT CASE after the common conditions (R112, R113); the choices are those of 11.7. -/
def acceptCase (c : Control) (s : State) : Executed :=
  match ofLength 4 c.params with
  | none => refuse .badField s
  | some bs =>
    let h := readHandle bs
    withHandle h
      (fun x =>
        if fieldAt 3 1 bs = 1 ∨ fieldAt 3 1 bs = 2 then
          if x.phase = .held then
            if fieldAt 3 1 bs = 2 then accept s (.accepted h .held x.flags x.offerNumber)
            else
              accept (placeOffer h (s.setCase h.slot (released s x)))
                (.accepted h .anchored x.flags (released s x).offerNumber)
          else refuse .wrongPhase s
        else refuse .badField s) s

/-- ACCEPT CASE (R112). -/
def execAcceptCase (s : State) : Result := runCommand 0x03 .activeOnly false acceptCase s

/-! ### BIND CASE (R117, R118) -/

/-- The case bound to its replacement (R118). -/
def boundTo (card time : Nat) (x : CaseRecord) : CaseRecord :=
  { x with replacement := some card, bindTime := some time, phase := .bound }

/-- BIND CASE after the common conditions (R117, R118). -/
def bindCase (c : Control) (s : State) : Executed :=
  match ofLength 13 c.params with
  | none => refuse .badField s
  | some bs =>
    let h := readHandle bs
    let card := fieldAt 3 6 bs
    let y := boundTo card (fieldAt 9 4 bs)
    withHandle h
      (fun x =>
        if card = 0 then refuse .badField s
        else if x.phase ≠ .anchored then refuse .wrongPhase s
        else if (lookup card s).isSome then refuse .duplicateCase s
        else if x.flags.tallyFinal then
          accept (settleCase h.slot (y x) s) (.bound h .settled (some s.clock.time))
        else accept (s.setCase h.slot (y x)) (.bound h .bound none)) s

/-- BIND CASE (R117). -/
def execBindCase (s : State) : Result := runCommand 0x04 .activeOnly false bindCase s

/-! ### FORCE PROGRESS (R124, R125) -/

/-- The ACTIVE feeds whose sweep time is below a report time (R124). -/
def State.feedsBehindTime (s : State) (tr : Nat) : Nat := s.activeFeeds.countP (fun f => decide (f.sweep < tr))

/-- The ACTIVE feeds whose cleared version is below a list version (R125). -/
def State.feedsBehindVersion (s : State) (lv : Nat) : Nat :=
  s.activeFeeds.countP (fun f => decide (f.cleared < lv))

/-- The case as forced, with the feeds it went without (R124, R125). -/
def forcedWith (n : Nat) (x : CaseRecord) : CaseRecord :=
  { x with excluded := n, flags := { x.flags with forced := true } }

/-- FORCE PROGRESS after the common conditions (R124, R125). -/
def forceProgress (c : Control) (s : State) : Executed :=
  match ofLength 3 c.params with
  | none => refuse .badField s
  | some bs =>
    let h := readHandle bs
    withHandle h
      (fun x =>
        match x.phase with
        | .stalled .listed =>
          let y := anchored s.productAt s.policy (forcedWith (s.feedsBehindTime x.tr) x)
          accept (anchorCase h.slot (forcedWith (s.feedsBehindTime x.tr) x) s)
            (.forcedAnchor h y.phase y.excluded y.offerNumber)
        | .stalled .bound =>
          let n := s.feedsBehindVersion (x.listVersion.getD 0)
          accept (settleCase h.slot (forcedWith n x) s) (.forcedSettle h .settled n (some s.clock.time))
        | _ => refuse .wrongPhase s) s

/-- FORCE PROGRESS (R124). -/
def execForceProgress (s : State) : Result := runCommand 0x05 .activeOnly false forceProgress s

/-! ### CLOSE CASE (R127) -/

/-- CLOSE CASE after the common conditions (R127). -/
def closeCase (c : Control) (s : State) : Executed :=
  match ofLength 3 c.params with
  | none => refuse .badField s
  | some bs =>
    let h := readHandle bs
    withHandle h
      (fun x =>
        if x.phase ≠ .settled then refuse .wrongPhase s
        else if s.emitted h x then accept (freeSlot h.slot s) (.closed h)
        else refuse .emissionPending s) s

/-- CLOSE CASE (R127). -/
def execCloseCase (s : State) : Result := runCommand 0x06 .activeOnly false closeCase s

/-! ### READ CASE (R36) -/

/-- The SUMMARY of a case (R36). -/
def summaryOf (h : Handle) (x : CaseRecord) (s : State) : Summary :=
  { handle := h
    case := { x with window := ⟨x.window.base, []⟩, offer := none }
    windowPresent := (List.range 32).countP (fun i => (x.window.at i).isSome)
    offerPending := (s.emission h .offer).isSome
    settlementEmitted := s.emitted h x }

/-- A case found: its SUMMARY and its REPLY (R36). -/
def foundCase (h : Handle) (x : CaseRecord) (s : State) : Executed :=
  { state := s, summary := some (summaryOf h x s), verdict := .reply (.caseFound h x.phase) }

/-- READ CASE after the common conditions (R36). -/
def readCase (c : Control) (s : State) : Executed :=
  match readCaseName c.params with
  | none => refuse .badField s
  | some (.byHandle h) => withHandle h (fun x => foundCase h x s) s
  | some (.byCard card) =>
    if card = 0 then refuse .badField s
    else
      match lookup card s with
      | some n =>
        (match s.caseAt n with
         | some x => foundCase (s.handleAt n) x s
         | none => accept s .caseNotFound)
      | none => accept s .caseNotFound

/-- READ CASE (R36). -/
def execReadCase (s : State) : Result := runCommand 0x07 .activeOnly false readCase s

end Sys2Proof.Machine
end

