-- ==== Sys2Proof/Machine/Notices.lean ====
section
/-! DEFINITION. The Notice Unit and its commands, and the order in which the writers of the Insert Queue take
its places (R15, R155 to R158). -/

namespace Sys2Proof.Machine

/-! ### Who writes to the Insert Queue (R15) -/

/-- The Insert Queue has a place (R15). -/
def State.insertRoom (s : State) : Bool := s.insertQueue.length < 64

/-- The case that the running export waits to report: the one at its position, with its phase in the filter
(R147). -/
def exportMatch (phases : BitVec 16) (n : Nat) (s : State) : Option CaseRecord :=
  (s.caseAt n).filter (fun c => phases.getLsbD c.phase.code)

/-- The export is a waiting writer of the Insert Queue (R147). -/
def State.exportWaits (s : State) : Bool :=
  match s.cu.running with
  | some b =>
    (match b.work with
     | .exportCases phases n _ _ => b.begun && (exportMatch phases n s).isSome
     | _ => false)
  | none => false

/-! ### NOTICE (R155, R156) -/

/-- The class has something to report (R155). -/
def State.reportable (s : State) (c : NoticeClass) : Bool :=
  !(s.noticeAt c).masked && decide (0 < (s.noticeAt c).count)

/-- The class to be emitted: the first, in the cyclic order after the last-emitted pointer, that has
something to report (R155). -/
def State.nextNotice (s : State) : Option NoticeClass :=
  (noticeClasses.drop s.notices.pointer.code ++ noticeClasses.take s.notices.pointer.code).find? s.reportable

/-- A class's count and subject are cleared, its mask kept (R156, R158, R160). -/
def clearNotice (c : NoticeClass) (s : State) : State :=
  s.setNotice c { s.noticeAt c with count := 0, subject := none }

/-- A NOTICE of a class is formed and placed (R156). A handle subject is the one stored as the notice was counted,
also where its case has been freed since (DESIGN CHOICE, log entry 47). -/
def emitNotice (c : NoticeClass) (s : State) : State :=
  let t := clearNotice c s
  { t with
    insertQueue := s.insertQueue ++
      [.notice ⟨c, (s.noticeAt c).count, (s.noticeAt c).subject, s.mirror.straps.member⟩]
    notices := { t.notices with pointer := c } }

/-- PLACE NOTICE (R15, R155, R156). -/
def execPlaceNotice (s : State) : Result :=
  match s.nextNotice with
  | some c =>
    event (s.isActive && s.mirror.drain.isNone && s.insertRoom && s.cu.waiting.isEmpty &&
      s.mirror.relayHold.isEmpty && !s.exportWaits) (emitNotice c) s
  | none => .next s

/-! ### The commands (R157, R158) -/

/-- The masks written, class by class (R157). -/
def writeMasks : List (NoticeClass × Bool) → State → State
  | [], s => s
  | (c, m) :: rest, s => writeMasks rest (s.setNotice c { s.noticeAt c with masked := m })

/-- SET NOTICE MASK after the common conditions (R157). -/
def setMask (c : Control) (s : State) : Executed :=
  match readMasks c.params with
  | none => refuse .badField s
  | some ms => accept (writeMasks (noticeClasses.zip ms) s) (.masks ms)

/-- SET NOTICE MASK (R157). -/
def execSetNoticeMask (s : State) : Result := runCommand 0x30 .activeOnly false setMask s

/-- Classes cleared, one after another. -/
def clearAll : List NoticeClass → State → State
  | [], s => s
  | c :: rest, s => clearAll rest (clearNotice c s)

/-- CLEAR NOTICES after the common conditions (R158). -/
def clearNotices (c : Control) (s : State) : Executed :=
  match readClasses c.params with
  | none => refuse .badField s
  | some cs =>
    accept (clearAll cs s) (.cleared (cs.map (fun k => (k, (s.noticeAt k).count, (s.noticeAt k).subject))))

/-- CLEAR NOTICES (R158). -/
def execClearNotices (s : State) : Result := runCommand 0x31 .activeOnly false clearNotices s

end Sys2Proof.Machine
end

