-- ==== Sys2Proof/Machine/Ports.lean ====
section
/-! DEFINITION. The two line ports (01_the_record_path.md, 1.1): frames arriving, credit, silence and loss of
signal, the ends of transmissions, and what the ports become at a reset or a change of role (R1 to R7). -/

namespace Sys2Proof.Machine

/-- A good frame sets the link UP and restarts the silence timer (R5). -/
def Port.hear (p : Port) : Port := { p with linkUp := true, silence := 0 }

/-- `n` frames are counted as discards (R18). -/
def Port.discard (n : Nat) (p : Port) : Port :=
  { p with counters := { p.counters with discards := satAdd max32 p.counters.discards n } }

/-- A good record frame at the port of an ACTIVE engine: appended while the buffer has a place, and otherwise
discarded; Nr rises either way (R1). -/
def Port.receive (f : Frame) (p : Port) : Port :=
  if p.rx.length < 16 then
    { p with nr := p.nr + 1, rx := p.rx ++ [f], counters := { p.counters with good := bump32 p.counters.good } }
  else ({ p with nr := p.nr + 1 } : Port).discard 1

/-- A good record frame at the port of a STANDBY (R7): kept when `mine` holds and a place is free. -/
def Port.keep (mine : Bool) (f : Frame) (p : Port) : Port :=
  { p with rx := if mine && p.rx.length < 16 then p.rx ++ [f] else p.rx }

/-- A good record frame arrives (R1, R7). -/
def recordArrives (l : Line) (f : Frame) (s : State) : State :=
  if s.isActive then
    countIf (decide (16 ≤ (s.port l).rx.length)) .checkword (.line l.subject)
      (s.onPort l (fun p => p.hear.receive f))
  else s.onPort l (fun p => p.hear.keep (l == .centre && namesMember s.mirror.straps f) f)

/-- RECORD FRAME ARRIVAL (R1, R7, R177). A frame that is not good changes nothing. -/
def execRecordFrameArrival (l : Line) (bytes : List Byte) (s : State) : Result :=
  match Frame.ofBytes bytes with
  | some f => event (f.kind != kindCredit) (recordArrives l f) s
  | none => .next s

/-- How many frames the alignment of R3 finds missing. -/
def Port.missing (c : Credit) (p : Port) : Nat :=
  if c.first || p.first then 0
  else if (c.sent - p.nr).toNat ≤ 16 then (c.sent - p.nr).toNat else 0

/-- The three steps of R3. -/
def Port.align (c : Credit) (p : Port) : Port :=
  { (p.discard (p.missing c)) with
    nr := c.sent
    lh := if c.first then none else some c.limit
    first := false }

/-- A good frame of kind 00h arrives (R3, R7, R177). -/
def creditArrives (l : Line) (body : List Byte) (s : State) : State :=
  match Credit.ofBody body with
  | some c =>
    if s.isActive then
      countIf (decide (1 ≤ (s.port l).missing c)) .checkword (.line l.subject)
        (s.onPort l (fun p => p.hear.align c))
    else s.onPort l Port.hear
  | none => s.onPort l Port.hear

/-- CREDIT FRAME ARRIVAL (R3, R7, R177). -/
def execCreditFrameArrival (l : Line) (bytes : List Byte) (s : State) : Result :=
  match Frame.ofBytes bytes with
  | some f => event (f.kind == kindCredit) (creditArrives l f.body) s
  | none => .next s

/-- CREDIT FRAME DUE (R2). A STANDBY sends none (R7). -/
def execCreditFrameDue (l : Line) (s : State) : Result :=
  event s.isActive (fun s => s.onPort l (fun p => { p with creditDue := true })) s

/-- The transmitter is sending a credit frame. -/
def Tx.isCredit : Tx → Bool
  | .credit _ _ _ => true
  | _ => false

/-- CREDIT FRAME SENT (R2, R4). -/
def execCreditFrameSent (l : Line) (s : State) : Result :=
  event (s.port l).tx.isCredit (fun s => s.onPort l (fun p => { p with tx := .idle })) s

/-- What a cut of a record frame leaves; a credit frame goes on (R5). -/
def Tx.cut : Tx → Tx
  | .credit lg ns first => .credit lg ns first
  | _ => .idle

/-- The link of a line goes DOWN: a record in transmission is cut off (R5). -/
def linkDown (l : Line) (s : State) : State :=
  (if l = .station then cutStationDelta s else s).onPort l
    (fun p => { p with linkUp := false, tx := p.tx.cut })

/-- SILENCE TIMEOUT (R5). -/
def execSilenceTimeout (l : Line) (s : State) : Result :=
  event (decide ((s.port l).silence < 200))
    (fun s => (linkDown l s).onPort l (fun p => { p with silence := 200 })) s

/-- LOSS OF SIGNAL (R5, R180). -/
def execLossOfSignal (l : Line) (s : State) : Result := event (s.port l).linkUp (linkDown l) s

/-- A forwarded record completes on a line (R4, R11, R18). -/
def Port.forwardedDone (p : Port) : Port :=
  { p with tx := .idle, counters := { p.counters with forwarded := bump32 p.counters.forwarded } }

/-- The transmitter is sending a forwarded record. -/
def Tx.isForwarded : Tx → Bool
  | .forwarded _ => true
  | _ => false

/-- A forwarded record completes: it leaves its forward queue (R4). -/
def forwardedCompletes (l : Line) (s : State) : State :=
  { (s.onPort l Port.forwardedDone) with
    upQueue := if l = .centre then s.upQueue.tail else s.upQueue
    downQueue := if l = .station then s.downQueue.tail else s.downQueue }

/-- FORWARDED RECORD COMPLETES (R4). -/
def execForwardedRecordCompletes (l : Line) (s : State) : Result :=
  event (s.port l).tx.isForwarded (forwardedCompletes l) s

/-- The transmitter is sending a record of the Insert Queue. -/
def Tx.isInserted : Tx → Bool
  | .inserted _ => true
  | _ => false

/-- INSERTED RECORD COMPLETES (R4, R15, R18). -/
def execInsertedRecordCompletes (s : State) : Result :=
  event s.centre.tx.isInserted
    (fun s => { s with centre := s.centre.insertedDone, insertQueue := s.insertQueue.tail }) s

/-- The completion of an Emission List record (R129): its entry, if it still stands there, leaves the list,
or loses its renewed mark and stays. -/
def emissionCompletes (h : Handle) (k : EmitKind) (held : Bool) (s : State) : State :=
  let s1 : State := { s with centre := s.centre.insertedDone }
  match (if held then s.emission h k else none) with
  | some e => if e.renewed then s1.doEmitOp (.clearMark e) else s1.doEmitOp (.remove e)
  | none => s1

/-- EMISSION RECORD COMPLETES (R129). -/
def execEmissionRecordCompletes (s : State) : Result :=
  match s.centre.tx with
  | .emission h k _ held => event true (emissionCompletes h k held) s
  | _ => .next s

/-- A port after a reset (R6). -/
def Port.afterReset : Port := {}

/-- A port as its engine becomes ACTIVE (R6, R18): the counters restart, and the frames kept in the buffer
are counted good. -/
def Port.becomeActive (p : Port) : Port :=
  { p with first := true, ns := 0, lh := none, heldGrant := none
           counters := { good := p.rx.length } }

/-- A port as its engine ceases to be ACTIVE (R6, R7): what it was sending is cut. -/
def Port.ceaseActive (p : Port) : Port :=
  { p with rx := [], heldGrant := none, tx := .idle, creditDue := false }

/-- Both ports withhold (R172). -/
def withholdBoth (s : State) : State := { s with station := s.station.withhold, centre := s.centre.withhold }

/-- Both ports stop withholding (R172). -/
def grantBoth (s : State) : State :=
  { s with station := { s.station with heldGrant := none }, centre := { s.centre with heldGrant := none } }

end Sys2Proof.Machine
end

