-- ==== Sys2Proof/Machine/Arbiters.lean ====
section
/-! DEFINITION. The two arbiters (R16, R17), the records built as their transmission begins (R116, R121, R129),
and the places of the Insert Queue given to the Command Unit, the relay and the export (R15, R136, R147,
R170). -/

namespace Sys2Proof.Machine

/-! ### The Upward Arbiter (R16) -/

/-- The record of an Emission List entry, built from its case as it stands (R116, R121, R129). An OFFER entry of a
live case that holds no offer, as only an interrupted RESYNC PARTNER can leave it, sends an OFFER without the offer's
contents (DESIGN CHOICE, log entry 43). -/
def buildEmission (e : EmitEntry) (s : State) : EmitBody :=
  match s.named e.handle with
  | none => .unnamed
  | some c =>
    match e.kind with
    | .offer => .offer ⟨e.handle, c.card, c.offer, c.flags⟩
    | .settlement =>
      .settlement
        { handle := e.handle, card := c.card, operator := c.operator, tr := c.tr
          replacement := c.replacement, bindTime := c.bindTime, settleTime := c.settleTime
          listVersion := c.listVersion, tally := c.tally, excluded := c.excluded
          forced := c.flags.forced, tallyFinal := c.flags.tallyFinal
          lateCreditCapped := c.flags.lateCreditCapped }

/-- The record a source has waiting, as it would be sent (R16). In a takeover drain no Emission List record
is begun (R172). -/
def State.offered (s : State) : UpSource → Option Tx
  | .forward => s.upQueue.head?.map .forwarded
  | .insert => s.insertQueue.head?.map .inserted
  | .emission =>
    if s.mirror.drain.isSome then none
    else s.emissions.head?.map (fun e => .emission e.handle e.kind (buildEmission e s) true)

/-- The sources in cyclic order, beginning after the one the pointer names (R16). -/
def UpSource.after : UpSource → List UpSource
  | .forward => [.insert, .emission, .forward]
  | .insert => [.emission, .forward, .insert]
  | .emission => [.forward, .insert, .emission]

/-- The first source in the order that has a record waiting, and that record (R16). -/
def State.firstOffered (s : State) : List UpSource → Option (UpSource × Tx)
  | [] => none
  | src :: rest =>
    match s.offered src with
    | some t => some (src, t)
    | none => s.firstOffered rest

/-- UPWARD ARBITER CHOICE (R4, R16). -/
def execUpwardArbiterChoice (s : State) : Result :=
  match s.firstOffered s.upPointer.after with
  | some (src, t) =>
    event (s.centre.mayBegin s.isActive)
      (fun s => { s with centre := s.centre.beginFrame t, upPointer := src }) s
  | none => .next s

/-! ### The Downward Arbiter (R17) -/

/-- The delta that R17 chooses: one is waiting, and the count allows it or no record is waiting. -/
def State.deltaChosen (s : State) : Bool := s.deltaWaiting && (s.deltaCount < 4 || s.downQueue.isEmpty)

/-- DOWNWARD ARBITER CHOICE (R4, R17, R86). -/
def execDownwardArbiterChoice (s : State) : Result :=
  if s.deltaChosen then
    match s.listQueue with
    | e :: _ =>
      event (s.station.mayBegin s.isActive)
        (fun s =>
          beginDelta (formDelta e s)
            { s with station := s.station.beginFrame (.delta (formDelta e s))
                     deltaCount := min 4 (s.deltaCount + 1) }) s
    | [] => .next s
  else
    match s.downQueue with
    | f :: _ =>
      event (s.station.mayBegin s.isActive)
        (fun s => { s with station := s.station.beginFrame (.forwarded f), deltaCount := 0 }) s
    | [] => .next s

/-! ### Places of the Insert Queue (R15) -/

/-- PLACE COMMAND RECORD (R15, R136, R138): the Command Unit's oldest record takes a place. -/
def execPlaceCommandRecord (s : State) : Result :=
  event (s.isActive && s.insertRoom && !s.cu.waiting.isEmpty) placeAnswer s

/-- PLACE RELAY (R15, R170): the oldest relay of the hold takes a place. -/
def execPlaceRelay (s : State) : Result :=
  match s.mirror.relayHold with
  | a :: rest =>
    event (s.isActive && s.insertRoom && s.cu.waiting.isEmpty)
      (fun s => { s with insertQueue := s.insertQueue ++ [.answer a], mirror := { s.mirror with relayHold := rest } })
      s
  | [] => .next s

/-- The slot after an export's position (R146). -/
def nextSlot (n : Nat) : Nat := (n + 1) % slotLimit

/-- The export after a visit: further on in its window, or ended with SUCCESS (R148). -/
def exportAdvance (phases : BitVec 16) (n remaining count : Nat) (b : Busy) (s : State) : State :=
  if remaining ≤ 1 then
    flushAnswers (formCompletion true count none
      { s with cu := { s.cu with busy := some { b with work := .exportCases phases n 0 count } } })
  else
    { s with
      cu := { s.cu with busy := some { b with work := .exportCases phases (nextSlot n) (remaining - 1) count } } }

/-- A visit of the export to a slot (R147): a SUMMARY is placed for a case that matches. -/
def exportVisit (phases : BitVec 16) (n remaining count : Nat) (b : Busy) (s : State) : State :=
  match exportMatch phases n s with
  | some c =>
    exportAdvance phases n remaining (count + 1) b
      { s with insertQueue := s.insertQueue ++ [.answer (.summary (summaryOf (s.handleAt n) c s))] }
  | none => exportAdvance phases n remaining count b s

/-- EXPORT VISIT (R147, R148). -/
def execExportVisit (s : State) : Result :=
  match s.cu.running with
  | some b =>
    (match b.work with
     | .exportCases phases n remaining count =>
       event (s.isActive && b.begun &&
           (!s.exportWaits || (s.insertRoom && s.cu.waiting.isEmpty && s.mirror.relayHold.isEmpty)))
         (exportVisit phases n remaining count b) s
     | _ => .next s)
  | none => .next s

end Sys2Proof.Machine
end

