-- ==== Sys2Proof/Machine/Attribution.lean ====
section
/-! DEFINITION. The Attribution Unit (03_attributing_records_to_cases.md): what a USE, LOAD or SALE record means
for the case of its card, as a function of the case, and the event that takes the record (R38 to R62). -/

namespace Sys2Proof.Machine

/-- The classes of a record (R12), with the codes of 11.7. -/
inductive RecordClass where
  | preReport
  | postReport
  | blockedUse
  | duplicate
  | latePreReport
  | malformed
  deriving DecidableEq, Repr

/-- The code of a class (11.7). -/
def RecordClass.code : RecordClass → Byte
  | .preReport => 1
  | .postReport => 2
  | .blockedUse => 3
  | .duplicate => 4
  | .latePreReport => 5
  | .malformed => 6

/-- How a phase takes pre-report records (R49, and R27 for STALLED). -/
inductive Standing where
  | awaiting
  | anchored
  | bound
  | voiding
  deriving DecidableEq, Repr

/-- The rows of R49's table. -/
def Phase.standing : Phase → Standing
  | .opening | .listed | .stalled .listed => .awaiting
  | .anchored | .held => .anchored
  | .bound | .settled | .stalled .bound => .bound
  | .voiding => .voiding

/-- The record's event time is at or before the report time (R48, R49). -/
def preReport (r : CardRecord) (c : CaseRecord) : Bool := r.time ≤ c.tr

/-! ### The window (R44 to R48, R59, R60) -/

/-- The purse effect of a record (R48). -/
def purseEffect : CardDetail → Int
  | .use slot debit _ _ _ _ _ => if slot = 4 then -(debit : Int) else 0
  | .load _ amount => amount
  | .sale _ _ _ payment _ _ _ => -(payment : Int)

/-- The distance of a sequence from the base of a window (R44). -/
def Window.distance (w : Window) (s : Count16) : Nat := (s - w.base).toNat

/-- The window slid for a record ahead of it (R45). -/
def Window.slide (w : Window) (s : Count16) : Window :=
  { base := s - 31
    slots := w.slots.filter (fun e => ((BitVec.ofNat 16 e.1) - (s - 31)).toNat < 32) }

/-- The window with a record placed in it (R48). -/
def Window.place (w : Window) (s : Count16) (x : WinSlot) : Window :=
  { w with slots := SMap.put w.slots s.toNat x }

/-- The chain check of a record in place `i` fails (R59). -/
def chainBroken (w : Window) (i : Nat) (x : WinSlot) : Bool :=
  (match (if i = 0 then none else w.at (i - 1)) with
   | some b => b.post + x.effect != x.post
   | none => false) ||
  (match w.at (i + 1) with
   | some a => x.post + a.effect != a.post
   | none => false)

/-- The order check of a record in place `i` fails (R60). -/
def orderBroken (w : Window) (i : Nat) (x : WinSlot) : Bool :=
  (List.range 32).any (fun j =>
    match w.at j with
    | some y => (x.preReport && decide (j < i) && !y.preReport) || (!x.preReport && decide (i < j) && y.preReport)
    | none => false)

/-! ### The tests a record meets -/

/-- A post-report USE is blocked (R54, R96): by its validator's list, by its feed's cleared version, or by its
feed's acknowledgements. -/
def blockedBy (inj : Injector) (f : Feed) (r : CardRecord) (c : CaseRecord) : Bool :=
  match c.listVersion, r.detail with
  | some lv, .use _ _ _ _ _ epoch version =>
    (match epoch, version with
     | some e, some v => inj.epoch == some e && decide (lv ≤ min v inj.counter)
     | _, _ => false) ||
    (f.active && decide (lv ≤ f.cleared)) ||
    (f.active && f.ring.any (fun a => decide (lv ≤ a.version) && decide (a.time ≤ r.time)))
  | _, _ => false

/-- The record breaches its feed's sweep (R41). -/
def breaches (f : Feed) (r : CardRecord) : Bool := f.active && decide (r.time ≤ f.sweep)

/-! ### The rules of the classes, on the case -/

/-- The anchor takes a record (R50, R51). -/
def anchorOn (r : CardRecord) : Anchor := ⟨r.seq, r.post, some r.time, .record⟩

/-- The case with the anchor rule of its phase applied: R50 before anchoring, R51 once anchored or held. -/
def anchorRule (r : CardRecord) (c : CaseRecord) : CaseRecord :=
  if newer r.seq c.anchor.seq then
    match c.phase.standing with
    | .awaiting => { c with anchor := anchorOn r }
    | .anchored => { c with anchor := anchorOn r, flags := { c.flags with lateAnchor := true }, phase := .held }
    | .bound | .voiding => c
  else c

/-- A field carried replaces the field held; one not carried leaves it (R53). -/
def carriedOr (carried held : Option Nat) : Option Nat := carried.or held

/-- The contracts with the contract rule of a pre-report record applied (R52, R53). -/
def contractRule (r : CardRecord) (m : SMap Contract) : SMap Contract :=
  match r.detail with
  | .sale slot product price _ validFrom validTo trips =>
    (match SMap.look m slot with
     | some k =>
       if newer r.seq k.last then SMap.put m slot ⟨product, some price, validFrom, validTo, trips, r.seq⟩ else m
     | none => SMap.put m slot ⟨product, some price, validFrom, validTo, trips, r.seq⟩)
  | .use slot _ validFrom validTo trips _ _ =>
    if slot ≤ 3 then
      (match SMap.look m slot with
       | some k =>
         if newer r.seq k.last then
           SMap.put m slot { k with validFrom := carriedOr validFrom k.validFrom
                                    validTo := carriedOr validTo k.validTo
                                    trips := carriedOr trips k.trips, last := r.seq }
         else m
       | none => m)
    else m
  | .load _ _ => m

/-- The tally with a post-report record placed in the window entered (R54 to R57). -/
def tallyRule (owned : BitVec 5) (blocked : Bool) (r : CardRecord) (t : Tally) : Tally :=
  match r.detail with
  | .use _ debit _ _ _ _ _ =>
    if blocked then { t with blockedUses := bump t.blockedUses }
    else { t with uses := bump t.uses, debitSum := satAdd maxSum t.debitSum debit }
  | .load kind amount =>
    if owned.getLsbD (kind - 1) then { t with lateCredit := satAdd maxSum t.lateCredit amount }
    else { t with loads := bump t.loads, loadSum := satAdd maxSum t.loadSum amount }
  | .sale _ _ _ _ _ _ _ => { t with sales := bump t.sales }

/-- An addition to late credit is cut short (R58). -/
def cutsLateCredit (owned : BitVec 5) (r : CardRecord) (t : Tally) : Bool :=
  match r.detail with
  | .load kind amount => owned.getLsbD (kind - 1) && decide (maxSum < t.lateCredit + amount)
  | _ => false

/-- The class of a record that is not a duplicate (R46, R49, R54 to R57). -/
def classOf (blocked : Bool) (r : CardRecord) (c : CaseRecord) : RecordClass :=
  if preReport r c then
    match c.phase.standing with
    | .awaiting | .voiding => .preReport
    | .anchored | .bound => .latePreReport
  else if blocked then .blockedUse
  else .postReport

/-! ### One record against one case (R38, step 4) -/

/-- What the Attribution Unit decides of a record of a case: the case after it, its class, the
STALE_SEQUENCE mark, and which notices are counted. -/
structure Attributed where
  case : CaseRecord
  cls : RecordClass
  stale : Bool
  lateRecord : Bool
  blockedUse : Bool
  deriving DecidableEq, Repr

/-- A record behind the window (R46). -/
def attributeBehind (blocked : Bool) (r : CardRecord) (c : CaseRecord) : Attributed :=
  let c1 := { c with tally := { c.tally with staleSequences := bump c.tally.staleSequences } }
  { case := if preReport r c then anchorRule r c1 else c1
    cls := classOf blocked r c
    stale := true
    lateRecord := false
    blockedUse := false }

/-- A record placed in place `i` of the window `w`, which has room for it (R48 to R60). -/
def attributePlaced (owned : BitVec 5) (blocked : Bool) (w : Window) (i : Nat) (r : CardRecord)
    (c : CaseRecord) : Attributed :=
  let pre := preReport r c
  let x : WinSlot := ⟨r.post, purseEffect r.detail, pre⟩
  let w1 := w.place r.seq x
  let late := pre && (c.phase.standing == .anchored || c.phase.standing == .bound)
  let c1 : CaseRecord :=
    { c with
      window := w1
      contracts := if pre && c.phase.standing == .awaiting then contractRule r c.contracts else c.contracts
      tally := if late then { c.tally with latePreReports := bump c.tally.latePreReports }
               else if pre then c.tally
               else tallyRule owned blocked r c.tally
      flags := { c.flags with
                 chainBreak := c.flags.chainBreak || chainBroken w1 i x || orderBroken w1 i x
                 lateCreditCapped := c.flags.lateCreditCapped || (!pre && cutsLateCredit owned r c.tally) } }
  { case := if pre then anchorRule r c1 else c1
    cls := classOf blocked r c
    stale := false
    lateRecord := late
    blockedUse := !pre && blocked }

/-- A duplicate (R47). -/
def attributeDuplicate (c : CaseRecord) : Attributed :=
  { case := { c with tally := { c.tally with duplicates := bump c.tally.duplicates } }
    cls := .duplicate
    stale := false
    lateRecord := false
    blockedUse := false }

/-- A record measured against its case: placed by its distance from the window's base (R44). -/
def measured (owned : BitVec 5) (inj : Injector) (f : Feed) (r : CardRecord) (c : CaseRecord) : Attributed :=
  let d := c.window.distance r.seq
  let blocked := blockedBy inj f r c
  if d < 32 then
    if (c.window.at d).isSome then attributeDuplicate c
    else attributePlaced owned blocked c.window d r c
  else if d < 32768 then attributePlaced owned blocked (c.window.slide r.seq) 31 r c
  else attributeBehind blocked r c

/-! ### The trailer (R12, R40) -/

/-- The 5 bytes of a trailer (11.3). Bits 4 to 7 of the first are sent as 0 (DESIGN CHOICE, log entry 50). -/
def trailerBytes (h : Option Handle) (cls : Option RecordClass) (stale breach : Bool) : List Byte :=
  let marks : Byte := (if h.isSome then 1 else 0) ||| (if cls.isSome then 2 else 0) |||
    (if stale then 4 else 0) ||| (if breach then 8 else 0)
  let slot := (h.map (·.slot)).getD 0
  [marks, BitVec.ofNat 8 (slot / 256), BitVec.ofNat 8 slot, (h.map (·.use)).getD 0,
   (cls.map RecordClass.code).getD 0]

/-- A frame with the engine's trailer, in place of any it carried (R12). -/
def Frame.withTrailer (f : Frame) (t : List Byte) : Frame := { f with flags := f.flags ||| 1, trailer := t }

/-! ### The event (R38) -/

/-- The feed check of a valid record (R41, R42). -/
def feedCheck (r : CardRecord) (s : State) : State :=
  if (s.feedAt r.feed).active = false then countUnadmitted r.feed s
  else if breaches (s.feedAt r.feed) r then
    countNotice .feedBreach (.feed r.feed)
      (s.setFeed r.feed { s.feedAt r.feed with breaches := bump (s.feedAt r.feed).breaches })
  else s

/-- The case of slot `n` takes what was decided of a record, and its notices are counted (R38, R49, R51,
R54). A case that leaves ANCHORED for HELD loses its OFFER entry (R35, R51). -/
def applyAttributed (n : Nat) (before : CaseRecord) (a : Attributed) (s : State) : State :=
  let h := s.handleAt n
  let s1 := countIf a.blockedUse .blockedUse (.handle h)
    (countIf a.lateRecord .lateRecord (.handle h) (s.setCase n a.case))
  if before.phase = .anchored ∧ a.case.phase = .held then
    countNotice .caseHeld (.handle h) (removeEmission h .offer s1)
  else s1

/-- A record in ATTRIBUTE mode (R38): the state after it, and the frame that goes on. -/
def attributeFrame (f : Frame) (s : State) : State × Frame :=
  match (CardRecord.ofFrame f).filter (·.valid) with
  | none => (s, f.withTrailer (trailerBytes none (some .malformed) false false))
  | some r =>
    let s1 := feedCheck r s
    let breach := breaches (s.feedAt r.feed) r
    match lookup r.card s1 with
    | some n =>
      (match s1.caseAt n with
       | some c =>
         let a := measured s.policy.owned s.injector (s.feedAt r.feed) r c
         (applyAttributed n c a s1, f.withTrailer (trailerBytes (some (s1.handleAt n)) (some a.cls) a.stale breach))
       | none => (s1, f))
    | none => (s1, if breach then f.withTrailer (trailerBytes none none false true) else f)

/-- A record in BYPASS mode (R13, R61, R178): its card's case gains BYPASSED. -/
def bypassFrame (f : Frame) (s : State) : State :=
  if f.body.length < 6 then s
  else
    match lookup (fieldAt 0 6 f.body) s with
    | some n =>
      (match s.caseAt n with
       | some c => s.setCase n { c with flags := { c.flags with bypassed := true } }
       | none => s)
    | none => s

/-- ATTRIBUTE RECORD (R38). -/
def execAttributeRecord (s : State) : Result :=
  match s.head .station with
  | some f =>
    event (isCardKind f.kind && s.upRoom)
      (fun s =>
        match s.mode with
        | .attributing => takeUp (attributeFrame f s).2 (attributeFrame f s).1
        | .bypass => takeUp f (bypassFrame f s)) s
  | none => .next s

end Sys2Proof.Machine
end

