-- ==== Sys2Proof/Machine/Resets.lean ====
section
/-! DEFINITION. The four kinds of reset (R6, R37, R62, R84, R97, R141, R150, R151, R160, R175, R176), and the
engine's becoming ACTIVE and ceasing to be ACTIVE (R6, R18, R75, R94, R154, R172, R173). -/

namespace Sys2Proof.Machine

/-- A role change is counted (R154). -/
def countRoleChange (s : State) : State := countNotice .roleChange (.line .hold) s

/-! ### POWER-ON and PIN (R37, R162, R163) -/

/-- Every block as a POWER-ON or PIN reset leaves it, before the role is chosen: all state at its reset
value, with the straps read. -/
def clearedBy (cause : ResetCause) (straps : Straps) (s : State) : State :=
  { pending := s.pending, draws := s.draws, resetCause := cause, mirror := { straps := straps } }

/-- The end of a POWER-ON or PIN reset: without the PAIR strap the engine is ACTIVE at once (R162), and with
it the delay of R163 begins. -/
def startUp (cause : ResetCause) (straps : Straps) (s : State) : State :=
  let t := clearedBy cause straps s
  if straps.pair then { t with mirror := { t.mirror with stage := .delay } }
  else trigger (countRoleChange { t with mirror := { t.mirror with role := .active, holdOut := true } })

/-- POWER ON RESET (R37). -/
def execPowerOnReset (straps : Straps) (s : State) : Result := event true (startUp .powerOn straps) s

/-- PIN RESET (R6, R37). -/
def execPinReset (straps : Straps) (s : State) : Result := event true (startUp .pin straps) s

/-! ### COMMAND and FORCED -/

/-- The notice counts and subjects cleared, the masks kept, and the pointer at TABLE_FULL_SEEN (R160). -/
def resetNotices (s : State) : State :=
  let t := clearAll noticeClasses s
  { t with notices := { t.notices with pointer := .tableFullSeen } }

/-- What a COMMAND and a FORCED reset do alike outside the Mirror Unit: the delta in transmission is cut
(R90, R97), the ports restart (R6), the queues and the Command Unit are emptied (R11, R15, R141), the mode
is ATTRIBUTE (R13), the arbiters restart (R16, R17), the notice counts are cleared (R160), and the walk is
abandoned (R84). -/
def keepTables (cause : ResetCause) (s : State) : State :=
  let t := cutStationDelta s
  resetNotices
    { t with
      station := .afterReset
      centre := .afterReset
      upQueue := []
      downQueue := []
      insertQueue := []
      upPointer := .emission
      deltaCount := 0
      mode := .attributing
      walk := none
      cu := {}
      resetCause := cause }

/-- A COMMAND reset of an ACTIVE engine stops mirroring (R167): a message is queued or in transmission, or a
copy runs. -/
def MirrorUnit.resetStops (m : MirrorUnit) : Bool :=
  m.straps.pair && m.role == .active && (!m.queue.isEmpty || m.tx.isSome || m.copy.isSome)

/-- Where a COMMAND reset leaves the Hold and Force lines: a pulse, or a wait for the Hold after one, is cut
short, and all else goes on (R176; log entry 14). -/
def HoldStage.afterCommand : HoldStage → HoldStage
  | .pulsing => .settled
  | .waiting .forced => .settled
  | x => x

/-- The Mirror Unit after a COMMAND reset (R164, R167, R170, R176). A message in transmission is cut, also where the
reset stops mirroring (DESIGN CHOICE, log entry 48). A copy that a STANDBY takes goes on (log entry 40). -/
def MirrorUnit.afterCommand (m : MirrorUnit) : MirrorUnit :=
  { m with
    stage := m.stage.afterCommand
    currency := if m.resetStops then .stale else m.currency
    queue := []
    tx := none
    stopDue := m.stopDue || (m.resetStops && m.linkUp)
    yieldDue := false
    presenceDue := false
    relayList := []
    relayHold := []
    forceOut := false
    drain := none
    copy := none
    writes := [] }

/-- A COMMAND reset (R151). On an ACTIVE engine a new walk begins (R75). -/
def commandReset (s : State) : State :=
  countIf s.mirror.resetStops .mirrorStale (.line .pair)
    (trigger (keepTables .command { s with mirror := s.mirror.afterCommand }))

/-- The Mirror Unit after a FORCED reset (R175, R176). Whatever stage is under way on the Hold and Force lines ends, a
start-up delay and a wait after a HANDOVER among them (DESIGN CHOICE, log entry 53). A copy that a STANDBY takes goes on
(log entry 40). -/
def MirrorUnit.afterForced (m : MirrorUnit) : MirrorUnit :=
  { m with
    role := .standby
    stage := .settled
    currency := .stale
    queue := []
    group := []
    tx := none
    yieldDue := false
    presenceDue := false
    relayList := []
    relayHold := []
    holdOut := false
    forceOut := false
    drain := none
    copy := none
    writes := [] }

/-- A FORCED reset (R175). -/
def forcedReset (s : State) : State :=
  countIf s.isActive .roleChange (.line .hold) (keepTables .forced { s with mirror := s.mirror.afterForced })

/-! ### Becoming ACTIVE and ceasing to be (R6, R94, R135, R172, R173) -/

/-- The slots whose case has a removal version. -/
def State.removals (s : State) : List (Nat × CaseRecord) :=
  s.slots.filterMap (fun e =>
    e.2.case.bind (fun c => if c.removalVersion.isSome then some (e.1, c) else none))

/-- Removal versions made absent, one case after another (R94). -/
def dropRemovals : List (Nat × CaseRecord) → State → State
  | [], s => s
  | (n, c) :: rest, s => dropRemovals rest (s.setCase n { c with removalVersion := none })

/-- The cancelled ADD at the head of the List Queue replaced by a REMOVE (R94). -/
def dropCancelled (s : State) : State :=
  match s.listQueue with
  | e :: _ => if e.kind = .add ∧ e.cancelled then s.doListOp (.replace ⟨e.handle, .remove, false⟩) else s
  | [] => s

/-- The running takeover's COMPLETION of SUCCESS: for a TAKEOVER with the view taken, for a FORCED TAKEOVER
with the currency it noted (R173, R174). One that has been accepted and has not begun ends so too (DESIGN CHOICE,
log entry 35). -/
def completeTakeover (s : State) : State :=
  match s.cu.running with
  | some b =>
    (match b.work with
     | .takeover _ => formCompletion true 0 (some s.mirror.currency.detail) s
     | .forcedTakeover noted => formCompletion true 0 (some noted.detail) s
     | _ => s)
  | none => s

/-- The view an engine takes as it becomes ACTIVE: after a normal takeover the currency it held at the handover
(R167, R173). -/
def viewAfter : ClaimCause → Currency
  | .handover held => held
  | .startup | .forced => .stale

/-- A relay in transmission goes on, its answer having left the list (log entry 30). -/
def PairTx.detach : PairTx → PairTx
  | .relay a _ => .relay a false
  | t => t

/-- The Mirror Unit of an engine that becomes ACTIVE (R170, R173, R174). What its Mirror Queue still holds, its own
unsent HANDOVER, stays there and is sent (DESIGN CHOICE, log entry 38). -/
def MirrorUnit.becomeActive (cause : ClaimCause) (m : MirrorUnit) : MirrorUnit :=
  { m with
    role := .active
    stage := .settled
    currency := viewAfter cause
    next := 0
    group := []
    copyRx := .idle
    tx := m.tx.map PairTx.detach
    stopDue := m.stopDue || (cause == .handover .stale)
    yieldDue := false
    relayList := []
    relayHold := m.relayHold ++ m.relayList }

/-- The engine becomes ACTIVE at the end of its claim (R163). ROLE_CHANGE is counted in this event too, on top of a
count that the engine holds from a FORCED reset (DESIGN CHOICE, log entry 44). -/
def becomeActive (cause : ClaimCause) (s : State) : State :=
  let s1 : State :=
    { s with
      mirror := s.mirror.becomeActive cause
      station := s.station.becomeActive
      centre := s.centre.becomeActive
      cu := { s.cu with session := none } }
  flushAnswers (completeTakeover (trigger (countRoleChange (dropRemovals s1.removals (dropCancelled s1)))))

/-- The Mirror Unit of an engine that hands over (R172). -/
def MirrorUnit.handOver (m : MirrorUnit) : MirrorUnit :=
  { m with
    role := .standby
    stage := .settled
    currency := .current
    queue := [.handover m.next]
    expected := 0
    group := []
    copyRx := .idle
    relayHold := []
    holdOut := false
    drain := none
    copy := none
    writes := [] }

/-- The drain is complete: the engine hands over and becomes STANDBY (R6, R172). -/
def handOver (s : State) : State :=
  countRoleChange
    { s with
      mirror := s.mirror.handOver
      station := s.station.ceaseActive
      centre := s.centre.ceaseActive
      upQueue := []
      downQueue := []
      insertQueue := []
      walk := none
      cu := {} }

end Sys2Proof.Machine
end

