-- ==== Sys2Proof/Machine/Tables.lean ====
section
/-! DEFINITION. The table commands: the Policy Set, the product load session and the Product Table (R99 to
R103, R143, R144). -/

namespace Sys2Proof.Machine

/-- A value brought into a range (R102). -/
def clampInto (lo hi v : Nat) : Nat := max lo (min hi v)

/-- A setting carried is written clamped; one not carried keeps its value (R102). -/
def setting (lo hi held : Nat) (carried : Option Nat) : Nat :=
  match carried with
  | some v => clampInto lo hi v
  | none => held

/-- The Policy Set with the settings carried written (R101, R102). -/
def policyWith (p : PolicyParams) (q : Policy) : Policy :=
  { purseCeiling := setting 1 8388607 q.purseCeiling p.purseCeiling
    overdraftLimit := setting 0 100000 q.overdraftLimit p.overdraftLimit
    replacementFee := setting 0 100000 q.replacementFee p.replacementFee
    refundStep := setting 1 1000 q.refundStep p.refundStep
    serviceDayOffset := setting 0 86399 q.serviceDayOffset p.serviceDayOffset
    settleLimit := setting 1 60 q.settleLimit p.settleLimit
    retentionDays := setting 0 60 q.retentionDays p.retentionDays
    futureSlack := setting 0 3600 q.futureSlack p.futureSlack
    owned := match p.owned with
      | some v => BitVec.ofNat 5 v
      | none => q.owned }

/-- SET POLICY after the common conditions (R102). -/
def setPolicyCommand (c : Control) (s : State) : Executed :=
  match readPolicy c.params with
  | none => refuse .badField s
  | some p => accept (s.setPolicy (policyWith p s.policy)) (.policy (policyWith p s.policy))

/-- SET POLICY (R102). -/
def execSetPolicy (s : State) : Result := runCommand 0x20 .activeOnly false setPolicyCommand s

/-- READ POLICY after the common conditions (R103). -/
def readPolicyCommand (c : Control) (s : State) : Executed :=
  match ofLength 0 c.params with
  | none => refuse .badField s
  | some _ => accept s (.policy s.policy)

/-- READ POLICY (R103). -/
def execReadPolicy (s : State) : Result := runCommand 0x21 .activeOnly false readPolicyCommand s

/-- The number of codes from a first to a last, in a run that wraps after `top - 1` (R143, R146). -/
def runLength (top first last : Nat) : Nat :=
  if first ≤ last then last - first + 1 else top - first + last + 1

/-- BEGIN PRODUCT LOAD after the common conditions (R143). -/
def beginLoad (c : Control) (s : State) : Executed :=
  match ofLength 4 c.params with
  | none => refuse .badField s
  | some bs =>
    let first := fieldAt 0 2 bs
    let last := fieldAt 2 2 bs
    if 255 < first ∨ 255 < last then refuse .badField s
    else
      accept { s with cu := { s.cu with session := some ⟨first, last, first⟩ } }
        (.loadBegun first last (runLength 256 first last) first)

/-- BEGIN PRODUCT LOAD (R143). -/
def execBeginProductLoad (s : State) : Result := runCommand 0x22 .activeOnly false beginLoad s

/-- The kind of a code, and the restore mode of one (11.7). -/
def kindOf (n : Nat) : Option ProductKind :=
  match n with
  | 0 => some .none
  | 1 => some .calendar
  | 2 => some .rolling
  | 3 => some .carnet
  | _ => none

/-- The restore mode of a code (11.7). -/
def restoreOf (n : Nat) : Option RestoreMode :=
  match n with
  | 1 => some .inKind
  | 2 => some .convert
  | 3 => some .drop
  | _ => none

/-- The greatest total of a kind (R98). -/
def greatestTotal : ProductKind → Nat
  | .carnet => 255
  | _ => 400

/-- The entry as written, or nothing where it is written as NONE and counted (R99). -/
def RawProduct.checked (r : RawProduct) : Option Product :=
  match kindOf r.kind, restoreOf r.restore with
  | some .none, _ => some {}
  | some k, some m =>
    if r.listPrice ≤ 1000000 ∧ 1 ≤ r.total ∧ r.total ≤ greatestTotal k ∧ r.convertFee ≤ 100000 then
      some ⟨k, m, r.listPrice, r.total, r.convertFee⟩
    else none
  | _, _ => none

/-- The pointer moved to the next code of the window (R144). -/
def Session.advance (x : Session) : Session :=
  { x with pointer := if x.pointer = x.last then x.first else (x.pointer + 1) % 256 }

/-- The entries written one after another from the pointer on (R144). -/
def writeEntries : List RawProduct → Session → State → Session × State
  | [], x, s => (x, s)
  | r :: rest, x, s => writeEntries rest x.advance (s.setProduct x.pointer (r.checked.getD {}))

/-- PRODUCT DATA after the common conditions (R99, R144). -/
def productData (c : Control) (s : State) : Executed :=
  match readProducts c.params with
  | none => refuse .badField s
  | some rs =>
    match s.cu.session with
    | none => refuse .noLoadSession s
    | some x =>
      let (y, t) := writeEntries rs x s
      accept { t with cu := { t.cu with session := some y } }
        (.loaded rs.length (rs.countP (fun r => r.checked.isNone)) y.pointer)

/-- PRODUCT DATA (R144). -/
def execProductData (s : State) : Result := runCommand codeProductData .activeOnly false productData s

/-- READ PRODUCT after the common conditions (R100). -/
def readProduct (c : Control) (s : State) : Executed :=
  match ofLength 2 c.params with
  | none => refuse .badField s
  | some bs =>
    if 255 < fieldAt 0 2 bs then refuse .badField s
    else accept s (.product (fieldAt 0 2 bs) (s.productAt (fieldAt 0 2 bs)))

/-- READ PRODUCT (R100). -/
def execReadProduct (s : State) : Result := runCommand 0x24 .activeOnly false readProduct s

end Sys2Proof.Machine
end

