-- ==== Sys2Proof/Machine/Engine.lean ====
section
/-! DEFINITION. The commands on the engine: SET MODE, READ STATUS, ENGINE RESET, and the acceptance of the four
busy commands (R14, R138, R146, R149, R150, R168, R171, R174). -/

namespace Sys2Proof.Machine

/-- The mode of a code (11.7). -/
def modeOf (n : Nat) : Option Mode :=
  match n with
  | 1 => some .attributing
  | 2 => some .bypass
  | _ => none

/-- SET MODE after the common conditions (R14). -/
def setModeCommand (c : Control) (s : State) : Executed :=
  match (ofLength 1 c.params).bind (fun bs => modeOf (fieldAt 0 1 bs)) with
  | none => refuse .badField s
  | some m => accept { s with mode := m } (.mode m)

/-- SET MODE (R14). -/
def execSetMode (s : State) : Result := runCommand 0x38 .activeOnly false setModeCommand s

/-- The line counters as READ STATUS gives them: on a STANDBY they read 0 (R149). -/
def State.counters (s : State) (l : Line) : LineCounters := if s.isActive then (s.port l).counters else {}

/-- The result of READ STATUS, with the load session as it stood before the command (R145, R149). -/
def statusOf (session : Option Session) (s : State) : Status :=
  { vendor := 3214
    part := 420
    revision := 1
    straps := s.mirror.straps
    role := s.mirror.role
    currency := s.mirror.currency
    pairLinkUp := s.mirror.linkUp
    mode := s.mode
    busy := s.cu.busy.map (fun b => (b.work.code, b.tag))
    session := session
    walkRunning := s.walk.isSome
    resetCause := s.resetCause
    clock := s.clock
    horizon := s.horizon
    activeFeeds := s.activeFeeds.length
    injector := s.injector
    liveCases := s.liveCases
    liveSpill := s.liveSpill
    stationBuffer := s.station.rx.length
    centreBuffer := s.centre.rx.length
    upQueue := s.upQueue.length
    downQueue := s.downQueue.length
    insertQueue := s.insertQueue.length
    mirrorQueue := s.mirror.queue.length
    listQueue := s.listQueue.length
    emissions := s.emissions.length
    stationUp := s.station.linkUp
    centreUp := s.centre.linkUp
    stationCounters := s.counters .station
    centreCounters := s.counters .centre }

/-- READ STATUS after the common conditions (R149). -/
def readStatus (session : Option Session) (c : Control) (s : State) : Executed :=
  match ofLength 0 c.params with
  | none => refuse .badField s
  | some _ => accept s (.status (statusOf session s))

/-- READ STATUS (R149). -/
def execReadStatus (s : State) : Result := runCommand 0x39 .either false (readStatus s.cu.session) s

/-- ENGINE RESET after the common conditions (R150). -/
def engineReset (c : Control) (s : State) : Executed :=
  match ofLength 0 c.params with
  | none => refuse .badField s
  | some _ => accept (commandReset s) (.wasReset .command (commandReset s).liveCases)

/-- ENGINE RESET (R150). -/
def execEngineReset (s : State) : Result := runCommand 0x3A .either false engineReset s

/-! ### Busy commands accepted (R138) -/

/-- A busy command is accepted: the Command Unit takes it, its tag and its starting progress (R138). -/
def takeBusy (w : BusyWork) (c : Control) (s : State) : State :=
  { s with cu := { s.cu with busy := some ⟨w, c.tag, false, false⟩ } }

/-- A phase filter names one or more of the eight phases and nothing else (R146, 11.7). -/
def validFilter (n : Nat) : Bool := n != 0 && n % 2 == 0 && n < 512

/-- EXPORT CASES after the common conditions (R146). -/
def exportCases (c : Control) (s : State) : Executed :=
  match ofLength 6 c.params with
  | none => refuse .badField s
  | some bs =>
    let first := fieldAt 2 2 bs
    let last := fieldAt 4 2 bs
    let phases := BitVec.ofNat 16 (fieldAt 0 2 bs)
    let size := runLength slotLimit first last
    if validFilter (fieldAt 0 2 bs) && decide (first < slotLimit) && decide (last < slotLimit) then
      accept (takeBusy (.exportCases phases first size 0) c s) (.exporting phases first last size)
    else refuse .badField s

/-- EXPORT CASES (R146). -/
def execExportCases (s : State) : Result := runCommand 0x40 .activeOnly true exportCases s

/-- RESYNC PARTNER after the common conditions (R168). -/
def resyncPartner (c : Control) (s : State) : Executed :=
  match ofLength 0 c.params with
  | none => refuse .badField s
  | some _ =>
    if s.mirror.straps.pair && s.mirror.linkUp then accept (takeBusy .resync c s) .begun
    else refuse .noPartner s

/-- RESYNC PARTNER (R168). -/
def execResyncPartner (s : State) : Result := runCommand 0x41 .activeOnly true resyncPartner s

/-- TAKEOVER after the common conditions (R171). -/
def takeover (c : Control) (s : State) : Executed :=
  match ofLength 0 c.params with
  | none => refuse .badField s
  | some _ =>
    if !s.mirror.linkUp then refuse .noPartner s
    else if s.mirror.currency = .stale then refuse .staleStandby s
    else accept (takeBusy (.takeover false) c s) .begun

/-- TAKEOVER (R171). -/
def execTakeover (s : State) : Result := runCommand 0x42 .standbyOnly true takeover s

/-- FORCED TAKEOVER after the common conditions (R174). -/
def forcedTakeover (c : Control) (s : State) : Executed :=
  match ofLength 0 c.params with
  | none => refuse .badField s
  | some _ => accept (takeBusy (.forcedTakeover s.mirror.currency) c s) .begun

/-- FORCED TAKEOVER (R174). -/
def execForcedTakeover (s : State) : Result := runCommand 0x43 .standbyOnly true forcedTakeover s

end Sys2Proof.Machine
end

