-- ==== Sys2Proof/Machine/Feeds.lean ====
section
/-! DEFINITION. The feed commands: ADMIT FEED, RETIRE FEED and READ FEED (R72 to R74). -/

namespace Sys2Proof.Machine

/-- A feed as admitted (R72). -/
def admittedFeed (start : Nat) (n : Nat) (s : State) : Feed :=
  { s.feedAt n with active := true, sweep := max (s.clampTime start) s.horizon.h
                    cleared := s.horizon.vs, ring := [] }

/-- ADMIT FEED after the common conditions (R72). -/
def admitFeed (c : Control) (s : State) : Executed :=
  match ofLength 5 c.params with
  | none => refuse .badField s
  | some bs =>
    let n := fieldAt 0 1 bs
    let x := admittedFeed (fieldAt 1 4 bs) n s
    if 63 < n then refuse .badField s
    else if (s.feedAt n).active then refuse .feedActive s
    else accept (recompute (s.setFeed n x)) (.admitted n x.sweep x.cleared (s.setFeed n x).minima)

/-- ADMIT FEED (R72). -/
def execAdmitFeed (s : State) : Result := runCommand 0x10 .activeOnly false admitFeed s

/-- A feed as retired (R73). -/
def retiredFeed (n : Nat) (s : State) : Feed := { s.feedAt n with active := false, ring := [] }

/-- RETIRE FEED after the common conditions (R73). -/
def retireFeed (c : Control) (s : State) : Executed :=
  match ofLength 1 c.params with
  | none => refuse .badField s
  | some bs =>
    let n := fieldAt 0 1 bs
    if 63 < n then refuse .badField s
    else if (s.feedAt n).active = false then refuse .feedAbsent s
    else accept (recompute (s.setFeed n (retiredFeed n s))) (.retired n (s.setFeed n (retiredFeed n s)).minima)

/-- RETIRE FEED (R73). -/
def execRetireFeed (s : State) : Result := runCommand 0x11 .activeOnly false retireFeed s

/-- READ FEED after the common conditions (R74). -/
def readFeed (c : Control) (s : State) : Executed :=
  match ofLength 1 c.params with
  | none => refuse .badField s
  | some bs =>
    if 63 < fieldAt 0 1 bs then refuse .badField s
    else accept s (.feedRead (s.feedAt (fieldAt 0 1 bs)) s.horizon)

/-- READ FEED (R74). -/
def execReadFeed (s : State) : Result := runCommand 0x12 .activeOnly false readFeed s

end Sys2Proof.Machine
end

