-- ==== Sys2Proof/Machine/Pair.lean ====
section
/-! DEFINITION. The Mirror Unit (10_paired_engines.md): the Hold and Force lines, the Pair Link and its messages,
mirroring as a STANDBY takes it, the copy of RESYNC PARTNER, and the takeovers (R162 to R176). -/

namespace Sys2Proof.Machine

/-- The engine has the PAIR strap (R162). -/
def State.paired (s : State) : Bool := s.mirror.straps.pair

/-- A paired STANDBY. -/
def State.standsBy (s : State) : Bool := s.paired && !s.isActive

/-- A TAKEOVER of this engine waits for a HANDOVER (R171). -/
def State.awaitsHandover (s : State) : Bool :=
  match s.cu.running with
  | some b => b.begun && b.work == .takeover false
  | none => false

/-- A TAKEOVER of this engine is in progress and no HANDOVER has come (R139, R171): from its acceptance on, whether
or not its work has begun. -/
def State.takeoverOpen (s : State) : Bool :=
  match s.cu.running with
  | some b => b.work == .takeover false
  | none => false

/-- The running busy command is one that a claim of this cause ends (R173, R174). -/
def State.endsBusy (s : State) (cause : ClaimCause) : Bool :=
  match s.cu.running with
  | some b =>
    (match cause, b.work with
     | .handover _, .takeover _ => true
     | .forced, .forcedTakeover _ => true
     | _, _ => false)
  | none => false

/-- The takeover that belongs to a claim's cause ends in FAILURE with a detail (R173, R174). -/
def failClaim (cause : ClaimCause) (why : Detail) (s : State) : State :=
  if s.endsBusy cause then flushAnswers (failTakeover why s) else s

/-- The standby becomes STALE: its pending group is discarded and MIRROR_STALE is counted (R164, R166). A copy that
it takes goes on (R169; log entries 40 and 41). -/
def becomeStale (s : State) : State :=
  countNotice .mirrorStale (.line .pair) { s with mirror := { s.mirror with currency := .stale, group := [] } }

/-! ### The Hold line (R163, R173, R174) -/

/-- The engine asserts Hold and claims (R163). -/
def beginClaim (cause : ClaimCause) (s : State) : State :=
  { s with mirror := { s.mirror with holdOut := true, stage := .claiming cause } }

/-- STARTUP DELAY END (R163). -/
def execStartupDelayEnd (partnerHold : Bool) (s : State) : Result :=
  event (s.mirror.stage == .delay)
    (fun s =>
      if partnerHold then { s with mirror := { s.mirror with stage := .settled, currency := .stale } }
      else beginClaim .startup s) s

/-- The engine withdraws from its claim (R163, R173, R174). One that has become STALE since its HANDOVER stays STALE,
whatever currency it took then (DESIGN CHOICE, log entry 45). -/
def withdraw (cause : ClaimCause) (s : State) : State :=
  let s1 : State := { s with mirror := { s.mirror with holdOut := false, stage := .settled } }
  match cause with
  | .startup => { s1 with mirror := { s1.mirror with currency := .stale } }
  | .handover held => failClaim (.handover held) .claimLost s1
  | .forced =>
    if s.mirror.currency = .current then
      failClaim .forced .claimLost
        { (becomeStale s1) with mirror := { (becomeStale s1).mirror with stopDue := true } }
    else failClaim .forced .claimLost s1

/-- HOLD ASSERTED DURING CLAIM (R163, R173, R174). -/
def execHoldAssertedDuringClaim (s : State) : Result :=
  match s.mirror.stage with
  | .claiming cause => event true (withdraw cause) s
  | _ => .next s

/-- CLAIM COMPLETE (R163). -/
def execClaimComplete (s : State) : Result :=
  match s.mirror.stage with
  | .claiming cause => event true (becomeActive cause) s
  | _ => .next s

/-- PARTNER HOLD RELEASED (R173, R174). -/
def execPartnerHoldReleased (s : State) : Result :=
  match s.mirror.stage with
  | .waiting cause => event true (beginClaim cause) s
  | _ => .next s

/-- HOLD STUCK TIMEOUT (R173, R174). -/
def execHoldStuckTimeout (s : State) : Result :=
  match s.mirror.stage with
  | .waiting cause =>
    event true (fun s => failClaim cause .holdStuck { s with mirror := { s.mirror with stage := .settled } }) s
  | _ => .next s

/-! ### The Force line (R174, R175) -/

/-- FORCE PULSE END (R174): the standby then waits for the partner's Hold. -/
def execForcePulseEnd (s : State) : Result :=
  event (s.mirror.stage == .pulsing)
    (fun s => { s with mirror := { s.mirror with forceOut := false, stage := .waiting .forced } }) s

/-- The length of a valid Force pulse, in microseconds (R175, R180). -/
def validPulse (microseconds : Nat) : Bool := 40 ≤ microseconds && microseconds ≤ 60

/-- FORCE PULSE RELEASED (R175). -/
def execForcePulseReleased (microseconds : Nat) (spansReset : Bool) (s : State) : Result :=
  event (s.paired && !spansReset)
    (fun s => if validPulse microseconds then forcedReset s else countNotice .forceGlitch (.line .force) s) s

/-! ### The Pair Link (R164) -/

/-- A good frame of any message sets the link UP and restarts the timer (R164). -/
def hearPair (s : State) : State := { s with mirror := { s.mirror with linkUp := true, silence := 0 } }

/-- A drain that runs ends without a handover (R172). -/
def endDrain (s : State) : State :=
  if s.mirror.drain.isSome then
    { (grantBoth s) with mirror := { s.mirror with drain := none } }
  else s

/-- Mirroring is running: the view is CURRENT or a copy runs (R167). -/
def MirrorUnit.running (m : MirrorUnit) : Bool := m.currency == .current || m.copy.isSome

/-- The link goes DOWN on an ACTIVE engine (R164, R167, R172). -/
def pairDownActive (s : State) : State :=
  if s.mirror.running then stopMirroring .linkDown true (endDrain s) else endDrain s

/-- The link goes DOWN on a STANDBY (R164, R170, R171). A TAKEOVER in progress ends in FAILURE, its COMPLETION lost
like every answer that waits. A YIELD REQUEST or MIRROR STOP that waits for the transmitter stays (DESIGN CHOICE, log
entries 36 and 37). -/
def pairDownStandby (s : State) : State :=
  let s1 := becomeStale s
  let s2 : State := { s1 with mirror := { s1.mirror with relayList := [], tx := s.mirror.tx.map PairTx.detach } }
  flushAnswers (if s.takeoverOpen then failTakeover .linkDown s2 else s2)

/-- PAIR LINK DOWN (R164). -/
def execPairLinkDown (s : State) : Result :=
  event (s.paired && s.mirror.linkUp)
    (fun s =>
      let t : State := { s with mirror := { s.mirror with linkUp := false, silence := 200 } }
      if s.isActive then pairDownActive t else pairDownStandby t) s

/-- PRESENCE DUE (R164): the port has sent nothing for 20 ms. -/
def execPresenceDue (s : State) : Result :=
  event (s.paired && s.mirror.tx.isNone) (fun s => { s with mirror := { s.mirror with presenceDue := true } }) s

/-- PRESENCE (R164). -/
def execPresence (good : Bool) (s : State) : Result := event (s.paired && good) hearPair s

/-! ### Mirror writes as a STANDBY takes them (R166, R169) -/

/-- A table write applied to a STANDBY's tables (R166); the spill counts follow the slots (R20). -/
def applyWrite (w : TableWrite) (s : State) : State :=
  match w with
  | .policy p => s.setPolicy p
  | .product code e => s.setProduct code e
  | .feed n e => s.setFeed n e
  | .horizon h => s.setHorizon h
  | .list i => s.setInjector i
  | .clock c => s.setClock c
  | .notice c e => s.setNotice c e
  | .slot n x => s.fillSlot n x
  | .listOp op => s.doListOp op
  | .emitOp op => s.doEmitOp op

/-- A message applied: an item with its last part, a run of a collection with each of its messages (R165,
R168). -/
def applyPayload (p : Payload) (s : State) : State :=
  match p with
  | .write w part parts => if part + 1 = parts then applyWrite w s else s
  | .copyBegin => s
  | .copyEnd => s
  | .listRun index es => { s with listQueue := if index = 0 then es else s.listQueue ++ es }
  | .emitRun index es => { s with emissions := if index = 0 then es else s.emissions ++ es }

/-- A group applied whole, in the order of its messages (R166). -/
def applyGroup : List MirrorWrite → State → State
  | [], s => s
  | m :: rest, s => applyGroup rest (applyPayload m.payload s)

/-- A message of the expected number joins the pending group, which is applied at its last message (R166). -/
def joinGroup (m : MirrorWrite) (s : State) : State :=
  let u := { s.mirror with expected := s.mirror.expected + 1 }
  if m.last then applyGroup (u.group ++ [m]) { s with mirror := { u with group := [] } }
  else { s with mirror := { u with group := u.group ++ [m] } }

/-- A MIRROR STOP is to be sent to the partner (R166, R169). -/
def sendStop (s : State) : State := { s with mirror := { s.mirror with stopDue := true } }

/-- COPY BEGIN on a STANDBY (R169). -/
def takeCopyBegin (m : MirrorWrite) (s : State) : State :=
  { s with mirror := { s.mirror with currency := .stale, group := [], expected := m.number + 1, copyRx := .taking } }

/-- COPY END, with no gap found (R169). -/
def takeCopyEnd (p : Payload) (s : State) : State :=
  if p = .copyEnd then { s with mirror := { s.mirror with currency := .current, copyRx := .idle } } else s

/-- A STANDBY takes this MIRROR WRITE (R166, R169): any, where it is CURRENT or takes a copy; a copy step, in any
currency, where it has found no gap in one (log entry 49). -/
def MirrorUnit.takes (m : MirrorUnit) (w : MirrorWrite) : Bool :=
  m.currency == .current ||
    (match m.copyRx with
     | .idle => w.copyStep
     | .taking => true
     | .missed => false)

/-- A MIRROR WRITE of the expected number is taken (R166, R169). -/
def takeExpected (w : MirrorWrite) (s : State) : State :=
  takeCopyEnd w.payload
    (joinGroup w { s with mirror := { s.mirror with copyRx := if w.copyStep then .taking else s.mirror.copyRx } })

/-- Whether a gap that this MIRROR WRITE shows is one of a copy (R169), after which the STANDBY waits for the next
COPY BEGIN. -/
def CopyTaking.afterGap (w : MirrorWrite) : CopyTaking → CopyTaking
  | .idle => if w.copyStep then .missed else .idle
  | .taking => .missed
  | .missed => .missed

/-- A MIRROR WRITE of another number than the expected one shows a message lost on the link: the pending group is
discarded, the taking of a copy is at an end, and a MIRROR STOP is sent; a CURRENT standby becomes STALE (R166,
R169). -/
def gapFound (w : MirrorWrite) (s : State) : State :=
  let t : State := { s with mirror := { s.mirror with group := [], copyRx := s.mirror.copyRx.afterGap w } }
  sendStop (if s.mirror.currency = .current then becomeStale t else t)

/-- A MIRROR WRITE on a STANDBY (R166, R169). -/
def takeMirrorWrite (w : MirrorWrite) (s : State) : State :=
  if w.payload = .copyBegin then takeCopyBegin w s
  else if s.mirror.takes w then
    if w.number = s.mirror.expected then takeExpected w s else gapFound w s
  else s

/-- MIRROR WRITE (R164, R166). -/
def execMirrorWrite (good : Bool) (m : MirrorWrite) (s : State) : Result :=
  event (s.paired && good) (fun s => if s.isActive then hearPair s else takeMirrorWrite m (hearPair s)) s

/-- MIRROR STOP (R166, R167, R172). -/
def execMirrorStop (good : Bool) (s : State) : Result :=
  event (s.paired && good)
    (fun s =>
      if s.isActive then stopMirroring .stop false (endDrain (hearPair s)) else becomeStale (hearPair s)) s

/-! ### Relays (R170) -/

/-- A relay arrives at an ACTIVE engine: into the relay hold, or lost while 8 wait (R170). -/
def takeRelay (a : Answer) (s : State) : State :=
  { s with mirror := { s.mirror with
      relayHold := if s.mirror.relayHold.length < 8 then s.mirror.relayHold ++ [a] else s.mirror.relayHold } }

/-- RESPONSE RELAY (R164, R170). -/
def execResponseRelay (good : Bool) (a : Answer) (s : State) : Result :=
  event (s.paired && good) (fun s => if s.isActive then takeRelay a (hearPair s) else hearPair s) s

/-! ### Messages sent, and the copy (R164, R168, R169) -/

/-- The message in transmission is COPY END. -/
def PairTx.isCopyEnd : PairTx → Bool
  | .queued (.write m) => m.payload == .copyEnd
  | _ => false

/-- A message's transmission completes: it leaves the Mirror Queue or the relay list (R164, R170). -/
def messageSent (t : PairTx) (s : State) : State :=
  let m := { s.mirror with tx := none }
  match t with
  | .queued _ => { s with mirror := { m with queue := m.queue.tail } }
  | .relay _ held =>
    if held && !s.isActive then flushAnswers { s with mirror := { m with relayList := m.relayList.tail } }
    else { s with mirror := m }
  | _ => { s with mirror := m }

/-- PAIR MESSAGE SENT (R164). The end of COPY END is a row of its own. -/
def execPairMessageSent (s : State) : Result :=
  match s.mirror.tx with
  | some t => event (!t.isCopyEnd) (messageSent t) s
  | none => .next s

/-- The number of table items of a copy (R168). -/
def copyItems : Nat := 2454

/-- The copy ends with SUCCESS, the view CURRENT (R169). -/
def copyDone (s : State) : State :=
  match s.mirror.copy with
  | some k =>
    if k.ended then
      flushAnswers (formCompletion true copyItems none
        { s with mirror := { s.mirror with currency := .current, copy := none } })
    else s
  | none => s

/-- COPY END SENT (R169). -/
def execCopyEndSent (s : State) : Result :=
  match s.mirror.tx with
  | some t => event t.isCopyEnd (fun s => copyDone (messageSent t s)) s
  | none => .next s

/-- A list cut into messages of up to 64 entries, one message for an empty list (R168). -/
def chunks {α : Type} (xs : List α) : List (List α) :=
  if xs = [] then [[]] else (List.range ((xs.length + 63) / 64)).map (fun i => (xs.drop (64 * i)).take 64)

/-- The messages of the copy's item of this order, as the item stands (R168). A live case slot takes as many as a
write to it does (R165), though R168's table gives 1 (DESIGN CHOICE, log entry 5). -/
def copyPayloads (item : Nat) (s : State) : List Payload :=
  if item = 0 then TableWrite.payloads (.policy s.policy)
  else if item < 257 then TableWrite.payloads (.product (item - 1) (s.productAt (item - 1)))
  else if item < 321 then TableWrite.payloads (.feed (item - 257) (s.feedAt (item - 257)))
  else if item = 321 then TableWrite.payloads (.horizon s.horizon)
  else if item = 322 then TableWrite.payloads (.list s.injector)
  else if item = 323 then TableWrite.payloads (.clock s.clock)
  else if item < 340 then
    match NoticeClass.ofCode (item - 323) with
    | some c => TableWrite.payloads (.notice c (s.noticeAt c))
    | none => []
  else if item < 2452 then TableWrite.payloads (.slot (item - 340) (s.slotAt (item - 340)))
  else if item = 2452 then (chunks s.listQueue).mapIdx (fun i es => .listRun i es)
  else (chunks s.emissions).mapIdx (fun i es => .emitRun i es)

/-- Messages of one copy step placed as a group of its own (R168). -/
def placeSteps : List Payload → MirrorUnit → MirrorUnit
  | [], m => m
  | p :: rest, m => placeSteps rest (m.enqueue p rest.isEmpty true)

/-- The next step of the copy has its places in the Mirror Queue (R168). -/
def stepRoom (steps : List Payload) (m : MirrorUnit) : Bool := m.queue.length + steps.length ≤ 128

/-- The messages of the copy's next step: COPY BEGIN where it still waits, an item, or COPY END (R168). -/
def nextSteps (k : Copy) (s : State) : List Payload :=
  if !k.begun then [.copyBegin]
  else if k.items < copyItems then copyPayloads k.items s
  else [.copyEnd]

/-- The copy after its next step. -/
def Copy.advance (k : Copy) : Copy :=
  if !k.begun then { k with begun := true }
  else if k.items < copyItems then { k with items := k.items + 1 }
  else { k with ended := true }

/-- The copy's next step is placed (R168): with COPY BEGIN the view becomes STALE. -/
def placeStep (k : Copy) (s : State) : State :=
  let m := placeSteps (nextSteps k s) s.mirror
  { s with mirror := { m with copy := some k.advance
                              currency := if k.begun then m.currency else .stale } }

/-- COPY ITEM PLACED (R168). -/
def execCopyItemPlaced (s : State) : Result :=
  match s.mirror.copy with
  | some k =>
    event (s.paired && s.isActive && !k.ended && stepRoom (nextSteps k s) s.mirror) (placeStep k) s
  | none => .next s

/-! ### Takeovers (R171 to R173) -/

/-- The running export ends with FAILURE as a drain begins (R141, R172). -/
def endExport (s : State) : State :=
  match s.cu.running with
  | some b =>
    (match b.work with
     | .exportCases _ _ _ count => flushAnswers (formCompletion false count none s)
     | _ => s)
  | none => s

/-- A takeover drain begins (R172). -/
def beginDrain (s : State) : State :=
  endExport { (withholdBoth s) with mirror := { s.mirror with drain := some false } }

/-- YIELD REQUEST (R164, R172). -/
def execYieldRequest (good : Bool) (s : State) : Result :=
  event (s.paired && good)
    (fun s =>
      let t := hearPair s
      if t.isActive && t.mirror.currency == .current && t.mirror.drain.isNone then beginDrain t else t) s

/-- The frame at the head of the Centre buffer is a CONTROL record for the engine (R172). -/
def State.controlWaits (s : State) : Bool := s.control.isSome

/-- The queues and lines have drained (R172). -/
def State.drained (s : State) : Bool :=
  s.station.quiescent && s.centre.quiescent && s.upQueue.isEmpty && s.downQueue.isEmpty &&
    s.insertQueue.isEmpty && s.mirror.relayHold.isEmpty && s.station.tx == .idle && s.centre.tx == .idle &&
    s.station.rx.isEmpty && (s.centre.rx.isEmpty || s.controlWaits)

/-- DRAIN COMPLETE (R172). -/
def execDrainComplete (s : State) : Result :=
  match s.mirror.drain with
  | some expired => event (s.isActive && s.mirror.queue.isEmpty && (expired || s.drained)) handOver s
  | none => .next s

/-- DRAIN TIMEOUT (R172): the drain's second has passed. -/
def execDrainTimeout (s : State) : Result :=
  event (s.isActive && s.mirror.drain == some false)
    (fun s =>
      if s.mirror.queue.isEmpty then handOver s
      else { s with mirror := { s.mirror with drain := some true } }) s

/-- TAKEOVER TIMEOUT (R171). -/
def execTakeoverTimeout (s : State) : Result :=
  event s.awaitsHandover (fun s => flushAnswers (failTakeover .noHandover s)) s

/-- A waiting TAKEOVER has its HANDOVER (R173). -/
def BusyWork.handed : BusyWork → BusyWork
  | .takeover _ => .takeover true
  | w => w

/-- The standby waits for the partner's Hold to be not asserted, unless it already has something under way on
the Hold line (R173; log entry 21). The currency held at the handover goes with the wait and the claim. -/
def HoldStage.afterHandover (held : Currency) : HoldStage → HoldStage
  | .settled => .waiting (.handover held)
  | .waiting (.handover _) => .waiting (.handover held)
  | .claiming (.handover _) => .claiming (.handover held)
  | x => x

/-- The wait that follows a HANDOVER, or one lost on the link (R171, R173). A TAKEOVER in progress has its HANDOVER with
this, also one whose REPLY still waits for its place (DESIGN CHOICE, log entry 51). -/
def awaitHold (s : State) : State :=
  { s with
    mirror := { s.mirror with stage := s.mirror.stage.afterHandover s.mirror.currency }
    cu := { s.cu with busy := s.cu.busy.map (fun b => { b with work := b.work.handed }) } }

/-- The currency after a HANDOVER: CURRENT when the numbers agree and no group is pending (R173). -/
def compareHandover (next : Count16) (s : State) : State :=
  if next = s.mirror.expected ∧ s.mirror.group = [] then
    { s with mirror := { s.mirror with currency := .current } }
  else
    countNotice .mirrorStale (.line .pair) { s with mirror := { s.mirror with currency := .stale } }

/-- HANDOVER (R164, R173). -/
def execHandover (good : Bool) (next : Count16) (s : State) : Result :=
  event (s.paired && good)
    (fun s => if s.isActive then hearPair s else awaitHold (compareHandover next (hearPair s))) s

/-- HOLD FALL NO HANDOVER (R171): a HANDOVER taken as lost, so as one whose number does not match. -/
def execHoldFallNoHandover (s : State) : Result :=
  event (s.standsBy && s.awaitsHandover)
    (fun s =>
      awaitHold (countNotice .mirrorStale (.line .pair)
        { s with mirror := { s.mirror with currency := .stale } })) s

end Sys2Proof.Machine
end

