-- ==== Sys2Proof/Machine/Dispatch.lean ====
section
/-! DEFINITION. The dispatch: one arm per command, one direct call of its meaning. -/

namespace Sys2Proof.Machine

def exec (i : Instr) (s : State) : Host.Outcome State Fault Refusal :=
  match i with
  | .recordFrameArrival line bytes => Sys2Proof.Machine.execRecordFrameArrival line bytes s
  | .creditFrameArrival line bytes => Sys2Proof.Machine.execCreditFrameArrival line bytes s
  | .creditFrameDue line => Sys2Proof.Machine.execCreditFrameDue line s
  | .silenceTimeout line => Sys2Proof.Machine.execSilenceTimeout line s
  | .lossOfSignal line => Sys2Proof.Machine.execLossOfSignal line s
  | .attributeRecord => Sys2Proof.Machine.execAttributeRecord s
  | .sweep => Sys2Proof.Machine.execSweep s
  | .listack => Sys2Proof.Machine.execListack s
  | .time => Sys2Proof.Machine.execTime s
  | .forwardUnchanged line => Sys2Proof.Machine.execForwardUnchanged line s
  | .controlForPartner => Sys2Proof.Machine.execControlForPartner s
  | .controlCodeReject => Sys2Proof.Machine.execControlCodeReject s
  | .openCase => Sys2Proof.Machine.execOpenCase s
  | .cancelCase => Sys2Proof.Machine.execCancelCase s
  | .acceptCase => Sys2Proof.Machine.execAcceptCase s
  | .bindCase => Sys2Proof.Machine.execBindCase s
  | .forceProgress => Sys2Proof.Machine.execForceProgress s
  | .closeCase => Sys2Proof.Machine.execCloseCase s
  | .readCase => Sys2Proof.Machine.execReadCase s
  | .admitFeed => Sys2Proof.Machine.execAdmitFeed s
  | .retireFeed => Sys2Proof.Machine.execRetireFeed s
  | .readFeed => Sys2Proof.Machine.execReadFeed s
  | .setPolicy => Sys2Proof.Machine.execSetPolicy s
  | .readPolicy => Sys2Proof.Machine.execReadPolicy s
  | .beginProductLoad => Sys2Proof.Machine.execBeginProductLoad s
  | .productData => Sys2Proof.Machine.execProductData s
  | .readProduct => Sys2Proof.Machine.execReadProduct s
  | .setNoticeMask => Sys2Proof.Machine.execSetNoticeMask s
  | .clearNotices => Sys2Proof.Machine.execClearNotices s
  | .setMode => Sys2Proof.Machine.execSetMode s
  | .readStatus => Sys2Proof.Machine.execReadStatus s
  | .engineReset => Sys2Proof.Machine.execEngineReset s
  | .exportCases => Sys2Proof.Machine.execExportCases s
  | .resyncPartner => Sys2Proof.Machine.execResyncPartner s
  | .takeover => Sys2Proof.Machine.execTakeover s
  | .forcedTakeover => Sys2Proof.Machine.execForcedTakeover s
  | .upwardArbiterChoice => Sys2Proof.Machine.execUpwardArbiterChoice s
  | .downwardArbiterChoice => Sys2Proof.Machine.execDownwardArbiterChoice s
  | .forwardedRecordCompletes line => Sys2Proof.Machine.execForwardedRecordCompletes line s
  | .insertedRecordCompletes => Sys2Proof.Machine.execInsertedRecordCompletes s
  | .emissionRecordCompletes => Sys2Proof.Machine.execEmissionRecordCompletes s
  | .addInjected => Sys2Proof.Machine.execAddInjected s
  | .removeInjected => Sys2Proof.Machine.execRemoveInjected s
  | .placeCommandRecord => Sys2Proof.Machine.execPlaceCommandRecord s
  | .placeRelay => Sys2Proof.Machine.execPlaceRelay s
  | .exportVisit => Sys2Proof.Machine.execExportVisit s
  | .placeNotice => Sys2Proof.Machine.execPlaceNotice s
  | .clockTick => Sys2Proof.Machine.execClockTick s
  | .walkVisit => Sys2Proof.Machine.execWalkVisit s
  | .powerOnReset straps => Sys2Proof.Machine.execPowerOnReset straps s
  | .pinReset straps => Sys2Proof.Machine.execPinReset straps s
  | .startupDelayEnd partnerHold => Sys2Proof.Machine.execStartupDelayEnd partnerHold s
  | .holdAssertedDuringClaim => Sys2Proof.Machine.execHoldAssertedDuringClaim s
  | .claimComplete => Sys2Proof.Machine.execClaimComplete s
  | .partnerHoldReleased => Sys2Proof.Machine.execPartnerHoldReleased s
  | .holdStuckTimeout => Sys2Proof.Machine.execHoldStuckTimeout s
  | .forcePulseEnd => Sys2Proof.Machine.execForcePulseEnd s
  | .forcePulseReleased microseconds spansReset => Sys2Proof.Machine.execForcePulseReleased microseconds spansReset s
  | .pairLinkDown => Sys2Proof.Machine.execPairLinkDown s
  | .presenceDue => Sys2Proof.Machine.execPresenceDue s
  | .presence good => Sys2Proof.Machine.execPresence good s
  | .mirrorWrite good message => Sys2Proof.Machine.execMirrorWrite good message s
  | .mirrorStop good => Sys2Proof.Machine.execMirrorStop good s
  | .handover good next => Sys2Proof.Machine.execHandover good next s
  | .responseRelay good answer => Sys2Proof.Machine.execResponseRelay good answer s
  | .yieldRequest good => Sys2Proof.Machine.execYieldRequest good s
  | .pairMessageSent => Sys2Proof.Machine.execPairMessageSent s
  | .copyItemPlaced => Sys2Proof.Machine.execCopyItemPlaced s
  | .copyEndSent => Sys2Proof.Machine.execCopyEndSent s
  | .drainComplete => Sys2Proof.Machine.execDrainComplete s
  | .drainTimeout => Sys2Proof.Machine.execDrainTimeout s
  | .takeoverTimeout => Sys2Proof.Machine.execTakeoverTimeout s
  | .holdFallNoHandover => Sys2Proof.Machine.execHoldFallNoHandover s
  | .creditFrameSent line => Sys2Proof.Machine.execCreditFrameSent line s

end Sys2Proof.Machine
end

