-- ==== Sys2Proof/WellFormed.lean ====
section
/-! DEFINITION. Well-formed commands: the operands a sender can bring. A message of the Pair Link carries items
and entries within the ranges and indexes the chapters give; a relay carries a RESPONSE or a COMPLETION. Every
other operand is in range by its type. -/

namespace Sys2Proof

open Machine

namespace Machine

/-- A number of the network time's or a version's range, 0 to 4,294,967,295. -/
def isWord32 (n : Nat) : Bool := n ≤ max32

/-- An optional number in the range of a 4-byte field. -/
def isOptWord32 (o : Option Nat) : Bool := o.all isWord32

/-- A balance: −8,388,608 to 8,388,607 (02, 2.3). -/
def isBalance (i : Int) : Bool := decide (-8388608 ≤ i) && decide (i ≤ 8388607)

/-- The ranges of the Policy Set (R101). -/
def Policy.inRange (p : Policy) : Bool :=
  (1 ≤ p.purseCeiling && p.purseCeiling ≤ 8388607) && p.overdraftLimit ≤ 100000 &&
    p.replacementFee ≤ 100000 && (1 ≤ p.refundStep && p.refundStep ≤ 1000) &&
    p.serviceDayOffset ≤ 86399 && (1 ≤ p.settleLimit && p.settleLimit ≤ 60) && p.retentionDays ≤ 60 &&
    p.futureSlack ≤ 3600

/-- The ranges of a Product Table entry (R98). -/
def Product.inRange (e : Product) : Bool :=
  match e.kind with
  | .none => e == {}
  | .carnet => e.listPrice ≤ 1000000 && 1 ≤ e.total && e.total ≤ 255 && e.convertFee ≤ 100000
  | .calendar | .rolling => e.listPrice ≤ 1000000 && 1 ≤ e.total && e.total ≤ 400 && e.convertFee ≤ 100000

/-- The ranges of a feed entry (04, 4.2), its ring in ascending order of version (R66). -/
def Feed.inRange (f : Feed) : Bool :=
  isWord32 f.sweep && isWord32 f.cleared && f.ring.length ≤ 8 &&
    f.ring.all (fun a => 1 ≤ a.version && isWord32 a.version && isWord32 a.time) &&
    decide (f.ring.Pairwise (fun a b => a.version < b.version)) &&
    f.breaches ≤ maxCount && f.unadmitted ≤ maxCount && f.regresses ≤ maxCount && f.acksIgnored ≤ maxCount

/-- The ranges of a contract sub-record (02, 2.3). -/
def Contract.inRange (k : Contract) : Bool :=
  k.product ≤ 255 && k.price.all (fun n => n ≤ 1000000) && k.validFrom.all (fun n => n ≤ 65535) &&
    k.validTo.all (fun n => n ≤ 65535) && k.trips.all (fun n => n ≤ 255)

/-- The ranges of the tally (R58). -/
def Tally.inRange (t : Tally) : Bool :=
  t.uses ≤ maxCount && t.debitSum ≤ maxSum && t.blockedUses ≤ maxCount && t.loads ≤ maxCount &&
    t.loadSum ≤ maxSum && t.sales ≤ maxCount && t.lateCredit ≤ maxSum && t.duplicates ≤ maxCount &&
    t.staleSequences ≤ maxCount && t.latePreReports ≤ maxCount

/-- A window lists places of its own 32 sequence numbers alone, in rising order of their keys (R44). -/
def Window.inRange (w : Window) : Bool :=
  decide (SMap.sorted w.slots) &&
    w.slots.all (fun e => e.1 < 65536 && ((BitVec.ofNat 16 e.1) - w.base).toNat < 32)

/-- The ranges of a case record (02, 2.3). -/
def CaseRecord.inRange (c : CaseRecord) : Bool :=
  (1 ≤ c.card && c.card < 2 ^ 48) && c.operator ≤ 255 && isWord32 c.tr && isBalance c.knownBalance &&
    c.pendingCredit ≤ 1000000 && isBalance c.anchor.balance && isOptWord32 c.anchor.time &&
    isOptWord32 c.listVersion && isOptWord32 c.removalVersion && c.window.inRange &&
    decide (SMap.sorted c.contracts) && c.contracts.all (fun e => e.1 ≤ 3 && e.2.inRange) &&
    c.tally.inRange && c.offerNumber ≤ 65535 && c.replacement.all (fun n => 1 ≤ n && n < 2 ^ 48) &&
    isOptWord32 c.bindTime && isOptWord32 c.settleTime && c.excluded ≤ 64

/-- A handle names one of the 2,112 slots (R23). -/
def Handle.inRange (h : Handle) : Bool := h.slot < slotLimit

/-- A List Queue entry: the cancelled mark belongs to an ADD (R32). -/
def ListEntry.inRange (e : ListEntry) : Bool := e.handle.inRange && (e.kind == .add || !e.cancelled)

/-- An Emission List entry: the renewed mark belongs to an OFFER (R33, R35). -/
def EmitEntry.inRange (e : EmitEntry) : Bool := e.handle.inRange && (e.kind == .offer || !e.renewed)

/-- The entry of a List Queue operation. -/
def ListOp.entry : ListOp → ListEntry
  | .append e | .withdraw e | .remove e | .replace e | .setMark e => e

/-- The entry of an Emission List operation. -/
def EmitOp.entry : EmitOp → EmitEntry
  | .append e | .remove e | .setMark e | .clearMark e => e

/-- A table write names an item of the tables and carries contents in their ranges (R165, 11.8). -/
def TableWrite.inRange : TableWrite → Bool
  | .policy p => p.inRange
  | .product code e => code < 256 && e.inRange
  | .feed n e => n < 64 && e.inRange
  | .horizon x => isWord32 x.h && isWord32 x.vs
  | .list i => isOptWord32 i.epoch && isWord32 i.counter
  | .clock c => isWord32 c.time && (c.isSet || c.time == 0)
  | .notice _ e => e.count ≤ maxCount
  | .slot n x => n < slotLimit && x.case.all CaseRecord.inRange
  | .listOp op => op.entry.inRange
  | .emitOp op => op.entry.inRange

/-- What a MIRROR WRITE carries: a part of as many as the item takes, or a message of a run of up to 64
entries (R165, R168). -/
def Payload.inRange : Payload → Bool
  | .write w part parts => part < parts && w.inRange
  | .copyBegin => true
  | .copyEnd => true
  | .listRun index es => index < 33 && es.length ≤ 64 && es.all ListEntry.inRange
  | .emitRun index es => index < 66 && es.length ≤ 64 && es.all EmitEntry.inRange

/-- The answers a RESPONSE RELAY carries: a RESPONSE or a COMPLETION (R170). -/
def Answer.relayed : Answer → Bool
  | .summary _ => false
  | .response _ => true
  | .completion _ => true

end Machine

/-- A well-formed command. -/
def Instr.wf : Instr → Bool
  | .mirrorWrite _ message => message.payload.inRange
  | .responseRelay _ answer => answer.relayed
  | _ => true

end Sys2Proof
end

