-- ==== Sys2Proof/Safety.lean ====
section
/-! DEFINITION. What the statements speak of: the state in groups (tables, record path, units, pairing), an engine
that mirrors nothing, a command in hand, the answer it leaves, and the invariants of a sound state. -/

namespace Sys2Proof.Machine

/-! ### The state in groups -/

/-- The tables that a pair mirrors, but for the notices (10, 10.3), with the spill counts that follow them. -/
structure Tables where
  slots : SMap Slot
  spill : SMap Nat
  listQueue : List ListEntry
  emissions : List EmitEntry
  feeds : SMap Feed
  horizon : Horizon
  clock : Clock
  injector : Injector
  products : SMap Product
  policy : Policy
  deriving DecidableEq, Repr

/-- The tables of a state. -/
def State.tables (s : State) : Tables :=
  ⟨s.slots, s.spill, s.listQueue, s.emissions, s.feeds, s.horizon, s.clock, s.injector, s.products, s.policy⟩

/-- The record path between the ports, the mode, the walk, and the model's own counters. -/
structure Road where
  upQueue : List Frame
  downQueue : List Frame
  upPointer : UpSource
  deltaCount : Nat
  mode : Mode
  walk : Option Walk
  resetCause : ResetCause
  pending : List Instr
  draws : Nat
  deriving DecidableEq, Repr

/-- The record path of a state. -/
def State.road (s : State) : Road :=
  ⟨s.upQueue, s.downQueue, s.upPointer, s.deltaCount, s.mode, s.walk, s.resetCause, s.pending, s.draws⟩

/-- What stands with the engine's units: the Command Unit, the Insert Queue and the Notice Unit. -/
structure Units where
  cu : CommandUnit
  insertQueue : List Inserted
  notices : Notices
  deriving DecidableEq, Repr

/-- The units of a state. -/
def State.units (s : State) : Units := ⟨s.cu, s.insertQueue, s.notices⟩

/-- The Mirror Unit but for mirroring itself and what waits for the Pair Link's transmitter. -/
structure Pairing where
  straps : Straps
  role : Role
  stage : HoldStage
  expected : Count16
  group : List MirrorWrite
  copyRx : CopyTaking
  linkUp : Bool
  silence : Nat
  relayHold : List Answer
  holdOut : Bool
  forceOut : Bool
  drain : Option Bool
  deriving DecidableEq, Repr

/-- The pairing of a Mirror Unit. -/
def MirrorUnit.pairing (m : MirrorUnit) : Pairing :=
  ⟨m.straps, m.role, m.stage, m.expected, m.group, m.copyRx, m.linkUp, m.silence, m.relayHold, m.holdOut,
   m.forceOut, m.drain⟩

/-- The engine mirrors no table write (R162, R165): it is unpaired, or STANDBY, or its view is STALE and no
copy runs. No write is left over from an earlier event. -/
def State.calm (s : State) : Bool :=
  s.mirror.writes.isEmpty &&
    !(s.mirror.straps.pair && s.isActive && (s.mirror.currency == .current || s.mirror.copy.isSome))

/-- The conditions under which the port of an ACTIVE engine begins a record frame (R4). -/
def Port.maySend (p : Port) : Prop :=
  p.linkUp = true ∧ p.tx = .idle ∧ ∃ lh, p.lh = some lh ∧ 1 ≤ (lh - p.ns).toNat ∧ (lh - p.ns).toNat ≤ 16

/-! ### What an event leaves -/

/-- The free transmitters have begun what is due (R2, R164). -/
def State.begun (s : State) : State :=
  { s with mirror := s.mirror.pump
           station := s.station.startCredit s.isActive
           centre := s.centre.startCredit s.isActive }

/-- `t` is what the event leaves whose own effect leads to `e`: nothing more has changed but that the free
transmitters have begun what is due (R2, R164) and that the event's table writes have been mirrored (R165). An
engine that mirrors nothing is left exactly so. On one that mirrors, the Mirror Queue has grown at its end, or
has overflowed; then mirroring has stopped (R167), which the view and the copy show, and the units have counted
and answered that. -/
def State.ended (e t : State) : Prop :=
  t.tables = e.tables ∧ t.road = e.road ∧
    t.station = e.station.startCredit e.isActive ∧ t.centre = e.centre.startCredit e.isActive ∧
    (e.mirror.writes = [] → t.mirror.pairing = e.mirror.pairing) ∧
    (e.mirror.writes = [] → t.mirror.currency = e.mirror.currency → t.mirror.copy = e.mirror.copy →
      t.units = e.units ∧ t.mirror.relayList = e.mirror.relayList ∧ e.mirror.queue <+: t.mirror.queue) ∧
    (e.calm = true → t = e.begun)

/-- A notice counted (R152): its class's count is one higher, at most 65,535, and its subject replaced. -/
def Notices.counted (c : NoticeClass) (sub : Subject) (n : Notices) : Notices :=
  { n with entries := SMap.setD n.entries {} c.code
             { SMap.getD n.entries {} c.code with
               count := min 65535 ((SMap.getD n.entries {} c.code).count + 1), subject := some sub } }

/-- The case's entry of a kind has left the Emission List; a transmission of its record goes on, and its
completion removes nothing (R34, R35). -/
def State.released (h : Handle) (k : EmitKind) (s : State) : State :=
  { s with
    emissions := s.emissions.eraseP (fun e => e.handle = h ∧ e.kind = k)
    centre := { s.centre with
      tx := if (s.emission h k).isSome then s.centre.tx.detach h k else s.centre.tx } }

/-- The slot has been freed (R24). -/
def State.freed (n : Nat) (s : State) : State :=
  State.released (s.handleAt n) .settlement
    (State.released (s.handleAt n) .offer
      { s with
        slots := SMap.setD s.slots {} n { use := (s.slotAt n).use + 1, case := none }
        spill := adjustSpill n (s.caseAt n) none s.spill })

/-- The case in a slot is now this one. -/
def State.withCase (n : Nat) (c : CaseRecord) (s : State) : State :=
  { s with slots := SMap.setD s.slots {} n { s.slotAt n with case := some c } }

/-- The case's OFFER entry has been placed: appended where there is none; otherwise it keeps its place, and gains
the renewed mark where its record is being transmitted (R33, R35). -/
def State.withOfferEntry (h : Handle) (s : State) : State :=
  { s with
    emissions :=
      if (s.emission h .offer).isNone then s.emissions ++ [⟨h, .offer, false⟩]
      else if s.emitting h .offer then
        s.emissions.map (fun e => if e.handle = h ∧ e.kind = .offer then { e with renewed := true } else e)
      else s.emissions }

/-- The case of a slot, read as `c`, has been anchored: HELD by a holding flag, with its notice, or ANCHORED, with
its offer waiting (R79, R80, R104). -/
def State.withAnchored (n : Nat) (c : CaseRecord) (s : State) : State :=
  let c' := anchored s.productAt s.policy c
  if c'.phase = .held then
    { s.withCase n c' with notices := s.notices.counted .caseHeld (.handle (s.handleAt n)) }
  else (s.withCase n c').withOfferEntry (s.handleAt n)

/-- The case of a slot, read as `c`, has been settled (R120). -/
def State.withSettled (n : Nat) (c : CaseRecord) (s : State) : State :=
  { s.withCase n { c with settleTime := some s.clock.time, phase := .settled } with
    emissions := s.emissions ++ [⟨s.handleAt n, .settlement, false⟩]
    notices := s.notices.counted .caseSettled (.handle (s.handleAt n)) }

/-- The feed check of a valid record has been made (R41, R42). -/
def State.feedChecked (r : CardRecord) (s : State) : State :=
  let f := s.feedAt r.feed
  if f.active = false then
    { s with
      feeds := SMap.setD s.feeds {} r.feed { f with unadmitted := min 65535 (f.unadmitted + 1) }
      notices := s.notices.counted .unadmittedFeed (.feed r.feed) }
  else if r.time ≤ f.sweep then
    { s with
      feeds := SMap.setD s.feeds {} r.feed { f with breaches := min 65535 (f.breaches + 1) }
      notices := s.notices.counted .feedBreach (.feed r.feed) }
  else s

/-- The walk after a trigger (R75): a STANDBY does not walk; an idle walk begins, and a running one is to be made
again. -/
def State.triggered (s : State) : Option Walk :=
  if s.isActive then
    match s.walk with
    | none => some ⟨0, false⟩
    | some w => some ⟨w.position, true⟩
  else s.walk

/-- H and Vs have been recomputed, and a rise of either has triggered the walk (R71, R75). -/
def State.recomputed (s : State) : State :=
  { s with
    horizon := s.minima
    walk := if s.horizon.h < s.minima.h ∨ s.horizon.vs < s.minima.vs then s.triggered else s.walk }

/-- A feed entry has changed, and a notice of a class has been counted with the feed as subject. -/
def State.withFeedFault (n : Nat) (x : Feed) (c : NoticeClass) (s : State) : State :=
  { s with feeds := SMap.setD s.feeds {} n x, notices := s.notices.counted c (.feed n) }

/-- The LIST DELTA in transmission on the Station Line, if one is, has ended without completing (R31, R90): a
REMOVE's case has no removal version, and a cancelled ADD has become a REMOVE in its place. -/
def State.deltaCut (s : State) : State :=
  match s.station.tx with
  | .delta d =>
    (match d.kind with
     | .remove =>
       (match s.named d.handle with
        | some c => s.withCase d.handle.slot { c with removalVersion := none }
        | none => s)
     | .add =>
       { s with
         listQueue :=
           if (s.listQueue.find? (fun e => e.handle = d.handle ∧ e.kind = .add)).any (·.cancelled) then
             s.listQueue.map (fun e => if e.handle = d.handle then ⟨d.handle, .remove, false⟩ else e)
           else s.listQueue })
  | _ => s

/-- The engine mirrors every table write (R165): it is a paired ACTIVE engine with a CURRENT view. No write is left
over from an earlier event. -/
def State.mirroring (s : State) : Prop :=
  s.mirror.straps.pair = true ∧ s.isActive = true ∧ s.mirror.currency = .current ∧ s.mirror.writes = []

/-- Messages as one group of the Mirror Queue (R165): numbered from `first` on, the last one marked. -/
def numbered (first : Count16) (copyStep : Bool) (ps : List Payload) : List QueuedMessage :=
  ps.mapIdx (fun i p => .write ⟨first + BitVec.ofNat 16 i, decide (i + 1 = ps.length), copyStep, p⟩)

/-- The Mirror Queue once an event's table writes have joined it (R165). -/
def State.withWrites (ws : List TableWrite) (s : State) : List QueuedMessage :=
  s.mirror.queue ++ numbered s.mirror.next false (ws.flatMap TableWrite.payloads)

/-- `t` is what an event with these table writes leaves of the mirroring of `s`: where the Mirror Queue has room for
them they stand at its end, in their order, and the view stays CURRENT (R165). -/
def State.hasMirrored (s : State) (ws : List TableWrite) (t : State) : Prop :=
  (s.withWrites ws).length ≤ 128 →
    t.mirror.queue = s.withWrites ws ∧ t.mirror.currency = .current ∧
      t.mirror.next = s.mirror.next + BitVec.ofNat 16 (ws.flatMap TableWrite.payloads).length

/-- What a notice class holds once a notice has been counted (R152). -/
def State.countedEntry (c : NoticeClass) (sub : Subject) (s : State) : NoticeEntry :=
  { s.noticeAt c with count := min 65535 ((s.noticeAt c).count + 1), subject := some sub }

/-- The table write of a counted notice: none where the class keeps what it held (log entry 9). -/
def State.noticeWrite (c : NoticeClass) (sub : Subject) (s : State) : List TableWrite :=
  if s.countedEntry c sub = s.noticeAt c then [] else [.notice c (s.countedEntry c sub)]

/-- A drain that ran is at an end, and both ports grant again (R172). -/
def State.drainEnded (s : State) : State :=
  if s.mirror.drain.isSome then
    { s with
      station := { s.station with heldGrant := none }
      centre := { s.centre with heldGrant := none }
      mirror := { s.mirror with drain := none } }
  else s

/-- Mirroring has stopped on an engine that reports no stop of its own (R167): the view is STALE, the Mirror Queue is
empty but for a message in transmission, no copy runs, and MIRROR_STALE is counted. -/
def State.mirroringStopped (s : State) : State :=
  { s with
    notices := s.notices.counted .mirrorStale (.line .pair)
    mirror := { s.mirror with
      currency := .stale, queue := if s.mirror.sendingQueued then s.mirror.queue.take 1 else [], copy := none } }

/-! ### Commands and answers -/

/-- The ACTIVE engine has a CONTROL record in hand: it stands at the head of the Centre buffer, its code and
complement agree, its target is one of the three, and the Command Unit takes it (R10, R134, R136). -/
def State.inHand (s : State) (code : Byte) (c : Control) : Prop :=
  s.control = some c ∧ c.codeFault = none ∧ c.code = code ∧ c.target ≤ 2 ∧ s.takesCommand = true ∧
    s.isActive = true

/-- The same on a STANDBY (R132). -/
def State.standbyInHand (s : State) (code : Byte) (c : Control) : Prop :=
  s.control = some c ∧ c.codeFault = none ∧ c.code = code ∧ c.target ≤ 2 ∧ s.takesCommand = true ∧
    s.isActive = false

/-- An ACTIVE engine's state once a command has been taken: the CONTROL record has left the buffer and is
counted as consumed (R10, R18), and a load session is over (R145). -/
def State.taken (s : State) : State :=
  { s with
    centre := { s.centre with
      rx := s.centre.rx.tail
      counters := { s.centre.counters with consumed := min 4294967295 (s.centre.counters.consumed + 1) } }
    cu := { s.cu with session := none } }

/-- The RESPONSE of a command with this outcome (R133). -/
def State.response (s : State) (c : Control) (v : Verdict) : Answer :=
  .response ⟨c.tag, c.code, s.mirror.straps.member, v⟩

/-- An answer stands in the Insert Queue or waits in the Command Unit for a place there (R136). -/
def State.holdsAnswer (s : State) (a : Answer) : Prop := .answer a ∈ s.insertQueue ∨ a ∈ s.cu.waiting

/-- The Command Unit has formed these answers, behind those that wait already (R136). -/
def State.withAnswers (as : List Answer) (s : State) : State :=
  { s with cu := { s.cu with waiting := s.cu.waiting ++ as } }

/-- The Command Unit of an ACTIVE engine has placed what waits, the oldest first, as far as the Insert Queue has room
(R15, R136); a busy command whose COMPLETION is among it is at an end (R140). -/
def State.placing (s : State) : State :=
  let room := 64 - s.insertQueue.length
  { s with
    cu := { s.cu with
      waiting := s.cu.waiting.drop room
      busy := if (s.cu.waiting.take room).any (fun a => a matches .completion _) then none else s.cu.busy }
    insertQueue := s.insertQueue ++ (s.cu.waiting.take room).map .answer }

/-- The Command Unit places a RESPONSE at once, and nothing begins with it (R136, R138): nothing else waits,
the Insert Queue has room, and a busy command, if there is one, has begun or ended. -/
def State.placesAtOnce (s : State) : Bool :=
  s.cu.waiting.isEmpty && decide (s.insertQueue.length < 64) && s.cu.busy.all (fun b => b.begun || b.ended)

/-- `t` is what the execution of a command leaves on an ACTIVE engine, `e` being the state to which its own
effect leads and `as` the answers it forms: they stand in the Insert Queue or wait for a place there, in their order
and behind what waited already (R133, R136), and nothing more has changed but as at the end of every event
(`State.ended`). On an engine that mirrors, too, the units are left just so, unless mirroring has stopped; and in every
case the load session is left as the command leaves it. (A busy command that begins with the REPLY does more: R138.) -/
def State.answeredWith (e : State) (as : List Answer) (t : State) : Prop :=
  t.tables = e.tables ∧ t.road = e.road ∧
    t.station = e.station.startCredit e.isActive ∧ t.centre = e.centre.startCredit e.isActive ∧
    (∀ a ∈ as, t.holdsAnswer a) ∧ t.cu.session = e.cu.session ∧
    (e.mirror.writes = [] → t.mirror.pairing = e.mirror.pairing) ∧
    (e.cu.busy.all (fun b => b.begun || b.ended) = true →
      (e.mirror.writes = [] → t.mirror.currency = e.mirror.currency → t.mirror.copy = e.mirror.copy →
        t.units = (e.withAnswers as).placing.units ∧ t.mirror.relayList = e.mirror.relayList ∧
          e.mirror.queue <+: t.mirror.queue) ∧
      (e.calm = true → t = (e.withAnswers as).placing.begun))

/-- `t` is what the execution of a command with the outcome `v` leaves on an ACTIVE engine, the RESPONSE being its one
answer (R133). -/
def State.answered (e : State) (c : Control) (v : Verdict) (t : State) : Prop := e.answeredWith [e.response c v] t

/-- The commands of the catalogue (08, 8.5): their codes, the roles that execute them (R142), and whether they are
busy commands. -/
def catalogue : List (Instr × Byte × Admission × Bool) :=
  [(.openCase, 0x01, .activeOnly, false), (.cancelCase, 0x02, .activeOnly, false),
   (.acceptCase, 0x03, .activeOnly, false), (.bindCase, 0x04, .activeOnly, false),
   (.forceProgress, 0x05, .activeOnly, false), (.closeCase, 0x06, .activeOnly, false),
   (.readCase, 0x07, .activeOnly, false), (.admitFeed, 0x10, .activeOnly, false),
   (.retireFeed, 0x11, .activeOnly, false), (.readFeed, 0x12, .activeOnly, false),
   (.setPolicy, 0x20, .activeOnly, false), (.readPolicy, 0x21, .activeOnly, false),
   (.beginProductLoad, 0x22, .activeOnly, false), (.productData, 0x23, .activeOnly, false),
   (.readProduct, 0x24, .activeOnly, false), (.setNoticeMask, 0x30, .activeOnly, false),
   (.clearNotices, 0x31, .activeOnly, false), (.setMode, 0x38, .activeOnly, false),
   (.readStatus, 0x39, .either, false), (.engineReset, 0x3A, .either, false),
   (.exportCases, 0x40, .activeOnly, true), (.resyncPartner, 0x41, .activeOnly, true),
   (.takeover, 0x42, .standbyOnly, true), (.forcedTakeover, 0x43, .standbyOnly, true)]

/-- A STANDBY's state once a command has been taken (R7, R145): as on an ACTIVE engine, but that it counts no
record (R18). -/
def State.takenStandby (s : State) : State :=
  { s with centre := { s.centre with rx := s.centre.rx.tail }, cu := { s.cu with session := none } }

/-- A STANDBY has formed an answer when no other waits: with the Pair Link UP it stands in the relay list, or waits
for a place there; with the link DOWN it is lost (R132, R170). -/
def State.handedOver (a : Answer) (s : State) : State :=
  if s.mirror.linkUp then
    if s.mirror.relayList.length < 8 then
      { s with mirror := { s.mirror with relayList := s.mirror.relayList ++ [a] } }
    else { s with cu := { s.cu with waiting := [a] } }
  else s

/-- `t` is what the execution of a command leaves on a STANDBY, `e` being the state to which its own effect leads
and `v` its outcome: the RESPONSE is handed to the Mirror Unit (R132, R170), and nothing more has changed but as at
the end of every event. -/
def State.relayed (e : State) (c : Control) (v : Verdict) (t : State) : Prop :=
  t.tables = e.tables ∧ t.road = e.road ∧ t.station = e.station ∧ t.centre = e.centre ∧
    t.insertQueue = e.insertQueue ∧ t.cu.session = e.cu.session ∧
    (e.mirror.writes = [] → e.cu.busy.all (fun b => b.begun || b.ended) = true → t.notices = e.notices) ∧
    (e.mirror.writes = [] → e.cu.waiting = [] → e.cu.busy.all (fun b => b.begun || b.ended) = true →
      t = (e.handedOver (e.response c v)).begun)

/-- The takeover `b` of a STANDBY that holds no other answer has ended in FAILURE (R140, R171, R173, R174): its
COMPLETION has been handed over or waits for its place, and BUSY_DONE_FAIL is counted. The count the COMPLETION
carries is a free value (log entry 7). -/
def State.takeoverFailed (b : Busy) (why : Detail) (s : State) : State :=
  let a : Answer :=
    .completion ⟨b.tag, b.work.code, s.mirror.straps.member, false, Config.failedTakeoverCount s.draws, some why⟩
  let x : State := s.handedOver a
  { x with
    cu := { x.cu with
      busy := if s.mirror.linkUp = true ∧ 8 ≤ s.mirror.relayList.length then some { b with ended := true }
              else none }
    notices := s.notices.counted .busyDoneFail (.tag b.tag)
    draws := s.draws + 1 }

/-- The copy of the busy command `b` of an ACTIVE engine that holds no other answer has ended in FAILURE (R140,
R169): its COMPLETION has its place in the Insert Queue or waits for one, and BUSY_DONE_FAIL is counted. -/
def State.copyFailed (b : Busy) (items : Nat) (why : Detail) (s : State) : State :=
  let a : Answer := .completion ⟨b.tag, b.work.code, s.mirror.straps.member, false, items, some why⟩
  let room : Bool := decide (s.insertQueue.length < 64)
  { s with
    insertQueue := if room then s.insertQueue ++ [.answer a] else s.insertQueue
    cu := { s.cu with
      waiting := if room then [] else [a]
      busy := if room then none else some { b with ended := true } }
    notices := s.notices.counted .busyDoneFail (.tag b.tag) }

/-! ### Invariants -/

/-- The Case Table holds together (R20, R22): its slots are listed in order; a live set slot belongs to its case's
home set; no two slots hold one card; and each set's spill count is the number of live Spill List slots whose
case's card has that set as home. -/
def State.caseTableSound (s : State) : Prop :=
  SMap.sorted s.slots ∧
    (∀ n c, s.caseAt n = some c → n < slotLimit ∧ (n < spillBase → n / 4 = homeSet c.card)) ∧
    (∀ n m c d, s.caseAt n = some c → s.caseAt m = some d → c.card = d.card → n = m) ∧
    (∀ set, s.spillAt set = spillList.countP (fun n => (s.caseAt n).any (fun c => homeSet c.card == set)))

/-- Every queue and buffer but the ack rings, the List Queue and the Emission List is within its capacity (00, 3; R1,
R11, R15, R17, R164, R170). -/
def State.withinCapacity (s : State) : Prop :=
  s.station.rx.length ≤ 16 ∧ s.centre.rx.length ≤ 16 ∧ s.upQueue.length ≤ 256 ∧ s.downQueue.length ≤ 128 ∧
    s.insertQueue.length ≤ 64 ∧ s.deltaCount ≤ 4 ∧ s.mirror.queue.length ≤ 128 ∧
    s.mirror.relayList.length ≤ 8 ∧ s.mirror.relayHold.length ≤ 8 ∧
    (s.isActive = false → s.mirror.relayHold = [])

/-- Every feed's ack ring is within its capacity (R66). -/
def State.ringsSound (s : State) : Prop := ∀ e ∈ s.feeds, e.2.ring.length ≤ 8

/-- The case of a List Queue entry (R30 to R32, R87): OPENING while its ADD stands, VOIDING while its ADD is
cancelled or its REMOVE stands. -/
def ListEntry.phase (e : ListEntry) : Phase := if e.kind = .add ∧ e.cancelled = false then .opening else .voiding

/-- The List Queue and the Emission List hold together with the Case Table (R32, R33): each entry names a live case,
in the phase that the entry belongs to; a case has one List Queue entry at most, and one Emission List entry of a
kind; the delta in transmission is of the oldest entry, and a STANDBY sends none. -/
def State.listsSound (s : State) : Prop :=
  SMap.wf s.slots {} slotLimit ∧
    s.listQueue.Pairwise (fun a b => a.handle ≠ b.handle) ∧
    (∀ e ∈ s.listQueue, ∃ c, s.named e.handle = some c ∧ c.phase = e.phase) ∧
    (∀ d, s.station.tx = .delta d →
      s.isActive = true ∧ ∃ e, s.listQueue.head? = some e ∧ e.handle = d.handle ∧ e.kind = d.kind) ∧
    s.emissions.Pairwise (fun a b => a.handle ≠ b.handle ∨ a.kind ≠ b.kind) ∧
    (∀ e ∈ s.emissions, ∃ c, s.named e.handle = some c ∧ (e.kind = .settlement → c.phase = .settled))

/-- A port's transmission of a forwarded record is that of the head of its forward queue (R4). -/
def forwardsHead (tx : Tx) (q : List Frame) : Prop := ∀ f, tx = .forwarded f → q.head? = some f

/-- The law of R19 for one line: its good frames received are the forwarded records transmitted on the other
line, its consumed CONTROL records, and the frames in its buffer and in the queue it feeds; while none of the
counters concerned has reached its maximum. -/
def lineLaw (own other : Port) (q : List Frame) : Prop :=
  own.counters.good < max32 → other.counters.forwarded < max32 → own.counters.consumed < max32 →
    own.counters.good = other.counters.forwarded + own.counters.consumed + own.rx.length + q.length

/-- The conservation of records (R19), with what makes it last: a STANDBY's queues are empty (R6, R7), and
each transmitter sends the head of its queue. -/
def State.conserved (s : State) : Prop :=
  forwardsHead s.centre.tx s.upQueue ∧ forwardsHead s.station.tx s.downQueue ∧
    (s.isActive = true →
      lineLaw s.station s.centre s.upQueue ∧ lineLaw s.centre s.station s.downQueue) ∧
    (s.isActive = false →
      s.upQueue = [] ∧ s.downQueue = [] ∧
        (∀ f, s.station.tx ≠ .forwarded f) ∧ (∀ f, s.centre.tx ≠ .forwarded f))

/-- The engine claims the Hold line. -/
def HoldStage.isClaim : HoldStage → Bool
  | .claiming _ => true
  | _ => false

/-- Hold is asserted exactly while the engine claims or is ACTIVE (R163), and an ACTIVE engine has nothing
under way on the Hold and Force lines. -/
def State.holdSound (s : State) : Prop :=
  s.mirror.holdOut = (s.isActive || s.mirror.stage.isClaim) ∧
    (s.isActive = true → s.mirror.stage = .settled)

/-- H and Vs are at or below the sweep time and the cleared version of every ACTIVE feed (R71). -/
def State.horizonSound (s : State) : Prop :=
  ∀ e ∈ s.feeds, e.2.active = true → s.horizon.h ≤ e.2.sweep ∧ s.horizon.vs ≤ e.2.cleared

/-- The Policy Set lies in its ranges (R101), and so does every Policy Set a pending group carries. -/
def State.policySound (s : State) : Prop :=
  s.policy.inRange = true ∧ ∀ m ∈ s.mirror.group, m.payload.inRange = true

/-- Every table is in its canonical form: keys rising and in range, no listed place at its default; and a load session
names codes of the Product Table (R143). -/
def State.canonical (s : State) : Prop :=
  SMap.wf s.slots {} slotLimit ∧ SMap.wf s.feeds {} 64 ∧ SMap.wf s.products {} 256 ∧
    SMap.wf s.notices.entries {} 17 ∧ SMap.wf s.spill 0 512 ∧
    ∀ x ∈ s.cu.session, x.first < 256 ∧ x.last < 256 ∧ x.pointer < 256

end Sys2Proof.Machine
end

