-- ==== Sys2Proof/Certificates/Slice0/Obligations.lean ====
section
/-! DEFINITION. The statements for the provers. `State.ended` and `State.answered` (Sys2Proof/Safety.lean) say
what the end of an event adds to an effect, so that a statement gives the effect and with it the frame. -/

open Sys2Proof Sys2Proof.Machine

/-! ### The block and its ports (01_the_record_path.md) -/

/-- The command at the front of the queue is executed on the state with the queue's rest. -/
def Obligations.StepRunsFrontCommand : Prop :=
  ∀ (c : Instr) (rest : List Instr) (s : State),
    step { s with pending := c :: rest } = exec c { s with pending := rest }

/-- R1, R7, R177: a good record frame is buffered at the port of an ACTIVE engine, or discarded and counted when
16 are there; a STANDBY keeps the CONTROL records for its own member while it has a place, and drops every other;
each restarts the silence timer and sets the link UP. Bytes that are no good frame change nothing. (That a STANDBY's Nr
and counters stay as they are: log entry 11.) -/
def Obligations.RecordFrameIsTaken : Prop :=
  (∀ (l : Line) (bytes : List Byte) (f : Frame) (s : State),
    Frame.ofBytes bytes = some f → f.kind ≠ kindCredit → s.isActive = true →
    ∃ t, exec (.recordFrameArrival l bytes) s = .next t ∧
      if (s.port l).rx.length < 16 then
        (s.onPort l fun p =>
          { p with linkUp := true, silence := 0, nr := p.nr + 1, rx := p.rx ++ [f]
                   counters := { p.counters with good := min 4294967295 (p.counters.good + 1) } }).ended t
      else
        ({ (s.onPort l fun p =>
              { p with linkUp := true, silence := 0, nr := p.nr + 1
                       counters := { p.counters with
                         discards := min 4294967295 (p.counters.discards + 1) } }) with
            notices := s.notices.counted .checkword (.line l.subject) } : State).ended t) ∧
  (∀ (l : Line) (bytes : List Byte) (f : Frame) (s : State),
    Frame.ofBytes bytes = some f → f.kind ≠ kindCredit → s.isActive = false →
    ∃ t, exec (.recordFrameArrival l bytes) s = .next t ∧
      (s.onPort l fun p =>
        { p with linkUp := true, silence := 0
                 rx := if l = .centre ∧ namesMember s.mirror.straps f = true ∧ p.rx.length < 16 then p.rx ++ [f]
                       else p.rx }).ended t) ∧
  (∀ (l : Line) (bytes : List Byte) (s : State), Frame.ofBytes bytes = none →
    exec (.recordFrameArrival l bytes) s = .next s ∧ exec (.creditFrameArrival l bytes) s = .next s)

/-- R3: a credit frame sets Nr to the far end's sent count, counting as lost a difference of 1 to 16 where
neither first mark is set, gives or takes the permission to send, and clears the first mark. A STANDBY takes it
in for the link state alone (R7), and so does any port one whose body is not 5 bytes (R177). -/
def Obligations.CreditFrameAligns : Prop :=
  (∀ (l : Line) (bytes : List Byte) (f : Frame) (c : Credit) (s : State),
    Frame.ofBytes bytes = some f → f.kind = kindCredit → Credit.ofBody f.body = some c →
    ∃ t, exec (.creditFrameArrival l bytes) s = .next t ∧
      let d := (c.sent - (s.port l).nr).toNat
      let lost := if c.first = true ∨ (s.port l).first = true ∨ 16 < d then 0 else d
      if s.isActive then
        ({ (s.onPort l fun p =>
              { p with linkUp := true, silence := 0, nr := c.sent, first := false
                       lh := if c.first then none else some c.limit
                       counters := { p.counters with
                         discards := min 4294967295 (p.counters.discards + lost) } }) with
            notices := if lost = 0 then s.notices else s.notices.counted .checkword (.line l.subject) } : State).ended t
      else (s.onPort l fun p => { p with linkUp := true, silence := 0 }).ended t) ∧
  (∀ (l : Line) (bytes : List Byte) (f : Frame) (s : State),
    Frame.ofBytes bytes = some f → f.kind = kindCredit → f.body.length ≠ 5 →
    ∃ t, exec (.creditFrameArrival l bytes) s = .next t ∧
      (s.onPort l fun p => { p with linkUp := true, silence := 0 }).ended t)

/-- R2: when the interval has elapsed an idle transmitter sends a credit frame with Lg, Ns and the first mark as
they stand; when one has been sent the transmitter is idle, and begins another only where one is due. The granted
limit Lg is unchanged by a frame appended, one higher after a frame discarded for want of a place and after a frame
taken; and withholding keeps it. -/
def Obligations.CreditFramesAreSent : Prop :=
  (∀ (l : Line) (s : State), s.isActive = true →
    ∃ t, exec (.creditFrameDue l) s = .next t ∧ (s.onPort l fun p => { p with creditDue := true }).ended t ∧
      ((s.port l).tx = .idle → (t.port l).tx = .credit (s.port l).lg (s.port l).ns (s.port l).first)) ∧
  (∀ (l : Line) (lg ns : Count16) (first : Bool) (s : State), (s.port l).tx = .credit lg ns first →
    ∃ t, exec (.creditFrameSent l) s = .next t ∧ (s.onPort l fun p => { p with tx := .idle }).ended t) ∧
  (∀ (p : Port) (f : Frame), p.heldGrant = none → p.rx.length ≤ 16 →
    (p.rx.length < 16 → (p.receive f).lg = p.lg) ∧ (p.rx.length = 16 → (p.receive f).lg = p.lg + 1) ∧
      (p.rx ≠ [] → p.take.lg = p.lg + 1) ∧ p.withhold.lg = p.lg ∧ (p.withhold.receive f).lg = p.lg)

/-- R5, R31, R90: a line whose timer runs out or whose signal is lost is DOWN; a record frame in transmission is
cut, a credit frame goes on, and Ns, the counters and the source keep what they have. A LIST DELTA that is cut has
made no injection: a REMOVE's case has no removal version, and a cancelled ADD becomes a REMOVE in its place. -/
def Obligations.LineDownCutsTransmission : Prop :=
  ∀ (l : Line) (s : State),
    let left : State :=
      match l with
      | .station => s.deltaCut
      | .centre => s
    ((s.port l).silence < 200 →
      ∃ t, exec (.silenceTimeout l) s = .next t ∧
        (left.onPort l fun p =>
          { p with linkUp := false, silence := 200
                   tx := if p.tx.isCredit = true then p.tx else .idle }).ended t) ∧
    ((s.port l).linkUp = true →
      ∃ t, exec (.lossOfSignal l) s = .next t ∧
        (left.onPort l fun p =>
          { p with linkUp := false, tx := if p.tx.isCredit = true then p.tx else .idle }).ended t)

/-- R4, R18: a forwarded record whose transmission completes leaves the forward queue of its line, and an
inserted one the Insert Queue; the line's counter rises and the transmitter is idle. -/
def Obligations.CompletedRecordLeavesItsQueue : Prop :=
  (∀ (l : Line) (f : Frame) (s : State), (s.port l).tx = .forwarded f →
    ∃ t, exec (.forwardedRecordCompletes l) s = .next t ∧
      ({ (s.onPort l fun p =>
            { p with tx := .idle
                     counters := { p.counters with
                       forwarded := min 4294967295 (p.counters.forwarded + 1) } }) with
          upQueue := if l = .centre then s.upQueue.tail else s.upQueue
          downQueue := if l = .station then s.downQueue.tail else s.downQueue } : State).ended t) ∧
  (∀ (r : Inserted) (s : State), s.centre.tx = .inserted r →
    ∃ t, exec .insertedRecordCompletes s = .next t ∧
      ({ s with
          centre := { s.centre with
            tx := .idle
            counters := { s.centre.counters with inserted := min 4294967295 (s.centre.counters.inserted + 1) } }
          insertQueue := s.insertQueue.tail } : State).ended t)

/-- R8 to R10, R131: the oldest frame of the Station buffer, of a kind no unit acts on, goes unchanged into the
Upward Forward Queue; the oldest of the Centre buffer, where it is neither TIME nor a CONTROL record of this pair,
into the Downward Forward Queue; and a CONTROL record for the partner is consumed and counted. A CONTROL record is
routed by its pair number and target alone. -/
def Obligations.ClassifierForwardsOrConsumes : Prop :=
  (∀ (f : Frame) (rest : List Frame) (s : State), s.isActive = true → s.station.rx = f :: rest →
    f.kind ∉ [kindUse, kindLoad, kindSale, kindSweep, kindListack] → s.upQueue.length < 256 →
    ∃ t, exec (.forwardUnchanged .station) s = .next t ∧
      ({ s with station := { s.station with rx := rest }, upQueue := s.upQueue ++ [f] } : State).ended t) ∧
  (∀ (f : Frame) (rest : List Frame) (s : State), s.isActive = true → s.centre.rx = f :: rest →
    routing s.mirror.straps f = .onward → f.kind ≠ kindTime → s.downQueue.length < 128 →
    ∃ t, exec (.forwardUnchanged .centre) s = .next t ∧
      ({ s with centre := { s.centre with rx := rest }, downQueue := s.downQueue ++ [f] } : State).ended t) ∧
  (∀ (f : Frame) (rest : List Frame) (s : State), s.isActive = true → s.centre.rx = f :: rest →
    routing s.mirror.straps f = .ignored →
    ∃ t, exec .controlForPartner s = .next t ∧
      ({ s with
          centre := { s.centre with
            rx := rest
            counters := { s.centre.counters with
              consumed := min 4294967295 (s.centre.counters.consumed + 1) } } } : State).ended t) ∧
  (∀ (straps : Straps) (f : Frame), f.kind ≠ kindControl → routing straps f = .onward) ∧
  (∀ (straps : Straps) (pair target : Byte) (rest : List Byte) (flags : Byte) (trailer : List Byte),
    routing straps ⟨kindControl, flags, pair :: target :: rest, trailer⟩ =
      if pair.toNat = straps.number.val then
        if target.toNat = 2 - straps.member.val then .ignored else .own
      else .onward)

/-- R16: of the three sources in cyclic order after the one last served, the first with a record waiting is
chosen; the Centre Line begins that record, and the pointer names its source. -/
def Obligations.UpwardArbiterTakesNextSource : Prop :=
  ∀ (before after : List UpSource) (src : UpSource) (r : Tx) (s : State),
    s.isActive = true → s.centre.maySend →
    s.upPointer.after = before ++ src :: after → (∀ x ∈ before, s.offered x = none) → s.offered src = some r →
    ∃ t, exec .upwardArbiterChoice s = .next t ∧
      ({ s with centre := { s.centre with tx := r, ns := s.centre.ns + 1 }, upPointer := src } : State).ended t

/-- R17, R86: a waiting delta is chosen while the count is below 4 or no record waits; it carries the epoch (the
network time where none is set), the next version and its case's card, and a REMOVE records its version with its
case. Otherwise, and in a takeover drain (R172), the oldest record of the Downward Forward Queue is chosen, and the count is
0. (An entry whose handle names no case gives a delta without a card: log entry 18.) -/
def Obligations.DownwardArbiterChooses : Prop :=
  (∀ (e : ListEntry) (rest : List ListEntry) (s : State),
    s.isActive = true → s.station.maySend →
    s.listQueue = e :: rest → s.mirror.drain = none → (s.injector.epoch.isSome = true ∨ s.clock.isSet = true) →
    (s.deltaCount < 4 ∨ s.downQueue = []) →
    ∃ t, exec .downwardArbiterChoice s = .next t ∧
      let v := min 4294967295 (s.injector.counter + 1)
      let sent : State :=
        { s with
          station := { s.station with
            tx := .delta ⟨e.handle, e.kind, s.injector.epoch.getD s.clock.time, v, (s.named e.handle).map (·.card)⟩
            ns := s.station.ns + 1 }
          deltaCount := min 4 (s.deltaCount + 1) }
      match e.kind, s.named e.handle with
      | .remove, some c => (sent.withCase e.handle.slot { c with removalVersion := some v }).ended t
      | _, _ => sent.ended t) ∧
  (∀ (f : Frame) (rest : List Frame) (s : State),
    s.isActive = true → s.station.maySend → s.downQueue = f :: rest →
    (4 ≤ s.deltaCount ∨ s.listQueue = [] ∨ (s.injector.epoch = none ∧ s.clock.isSet = false) ∨
      s.mirror.drain.isSome = true) →
    ∃ t, exec .downwardArbiterChoice s = .next t ∧
      ({ s with station := { s.station with tx := .forwarded f, ns := s.station.ns + 1 }, deltaCount := 0 } :
        State).ended t)

/-! ### The Case Table (02_the_case_table.md) -/

/-- R22, R29: an OPEN CASE that meets every condition fills the slot allocated to it with a case in OPENING that
restores from what clearing knew, appends its ADD entry and answers its handle. (A left-over entry of that handle: log
entry 52.) -/
def Obligations.OpenCaseFillsSlot : Prop :=
  ∀ (c : Control) (p : OpenParams) (n : Nat) (s : State),
    s.inHand 0x01 c → s.clock.isSet = true → readOpen c.params = some p → p.valid = true →
    p.tr ≤ s.clock.time + s.policy.futureSlack → lookup p.card s = none → s.injector.counter < 4294967295 →
    allocate p.card s = some n →
    ∃ (ks : SMap Contract) (t : State),
      (∀ slot, SMap.look ks slot =
        (p.contracts.find? (fun k => k.slot = slot)).map
          (fun k => ⟨k.product, k.price, k.validFrom, k.validTo, k.trips, p.knownSeq⟩)) ∧
      exec .openCase s = .next t ∧
      let x : CaseRecord :=
        { card := p.card, phase := .opening, operator := p.operator, tr := p.tr, knownSeq := p.knownSeq
          knownBalance := p.knownBalance, pendingCredit := p.pendingCredit, feeWaived := p.feeWaived == 1
          anchor := ⟨p.knownSeq, p.knownBalance, none, .opening⟩, listVersion := none, removalVersion := none
          window := ⟨p.knownSeq + 1, []⟩, contracts := ks, tally := {}, flags := {}, offerNumber := 0
          offer := none, replacement := none, bindTime := none, settleTime := none, excluded := 0 }
      State.answered
        { s.taken.withCase n x with
          spill := adjustSpill n (s.caseAt n) (some x) s.spill
          listQueue := s.listQueue ++ [⟨s.handleAt n, .add, false⟩] }
        c (.reply (.opened (s.handleAt n))) t

/-- R28: the first of conditions 2 to 7 that fails gives the reason, and nothing of the tables changes; a full
table is counted. -/
def Obligations.OpenCaseIsRefusedInOrder : Prop :=
  ∀ (c : Control) (s : State), s.inHand 0x01 c →
    let refused (why : Reason) : Prop :=
      ∃ t, exec .openCase s = .next t ∧ s.taken.answered c (.reject why) t
    (s.clock.isSet = false → refused .timeUnset) ∧
    (s.clock.isSet = true → (readOpen c.params).filter (·.valid) = none → refused .badField) ∧
    (∀ p, s.clock.isSet = true → readOpen c.params = some p → p.valid = true →
      (s.clock.time + s.policy.futureSlack < p.tr → refused .futureTime) ∧
      (p.tr ≤ s.clock.time + s.policy.futureSlack →
        ((lookup p.card s).isSome = true → refused .duplicateCase) ∧
        (lookup p.card s = none →
          (4294967295 ≤ s.injector.counter → refused .listExhausted) ∧
          (s.injector.counter < 4294967295 → allocate p.card s = none →
            ∃ t, exec .openCase s = .next t ∧
              State.answered
                { s.taken with notices := s.notices.counted .tableFullSeen (.homeSet (p.card % 512)) }
                c (.reject .tableFull) t))))

/-- R21, R22: in a sound Case Table the lookup finds the one slot that holds the card, and nothing where none does;
a new case takes the free way of its home set with the lowest number, or with none the free Spill List slot with
the lowest number, or with none no slot. -/
def Obligations.LookupAndAllocation : Prop :=
  (∀ (card : Nat) (s : State), s.caseTableSound →
    ∀ n, lookup card s = some n ↔ ∃ x, s.caseAt n = some x ∧ x.card = card) ∧
  (∀ (card : Nat) (s : State),
    let ways := [card % 512 * 4, card % 512 * 4 + 1, card % 512 * 4 + 2, card % 512 * 4 + 3]
    (∀ n, allocate card s = some n ↔
      (n ∈ ways ∧ s.caseAt n = none ∧ ∀ m ∈ ways, m < n → s.caseAt m ≠ none) ∨
      ((∀ m ∈ ways, s.caseAt m ≠ none) ∧ 2048 ≤ n ∧ n ≤ 2111 ∧ s.caseAt n = none ∧
        ∀ m, 2048 ≤ m → m < n → s.caseAt m ≠ none)) ∧
    (allocate card s = none ↔
      (∀ m ∈ ways, s.caseAt m ≠ none) ∧ ∀ m, 2048 ≤ m → m ≤ 2111 → s.caseAt m ≠ none))

/-- R23, R36: each command on a case, READ CASE by handle among them, checks its handle before all else of its own: a
slot number above 2,111 is BAD_FIELD, and a handle that names no case is STALE_HANDLE. -/
def Obligations.HandlesAreChecked : Prop :=
  (∀ (i : Instr) (code : Byte) (bs : List Byte) (s : State) (c : Control),
    ((i = .cancelCase ∧ code = 0x02 ∧ bs.length = 3) ∨ (i = .acceptCase ∧ code = 0x03 ∧ bs.length = 4) ∨
      (i = .bindCase ∧ code = 0x04 ∧ bs.length = 13) ∨ (i = .forceProgress ∧ code = 0x05 ∧ bs.length = 3) ∨
      (i = .closeCase ∧ code = 0x06 ∧ bs.length = 3)) →
    s.inHand code c → c.params = some bs →
    (2111 < (readHandle bs).slot → ∃ t, exec i s = .next t ∧ s.taken.answered c (.reject .badField) t) ∧
    ((readHandle bs).slot ≤ 2111 → s.named (readHandle bs) = none →
      ∃ t, exec i s = .next t ∧ s.taken.answered c (.reject .staleHandle) t)) ∧
  (∀ (bs : List Byte) (c : Control) (s : State), s.inHand 0x07 c → c.params = some (0 :: bs) → bs.length = 3 →
    (2111 < (readHandle bs).slot → ∃ t, exec .readCase s = .next t ∧ s.taken.answered c (.reject .badField) t) ∧
    ((readHandle bs).slot ≤ 2111 → s.named (readHandle bs) = none →
      ∃ t, exec .readCase s = .next t ∧ s.taken.answered c (.reject .staleHandle) t))

/-- R30, R31, R35: what CANCEL CASE does by the phase of its case. (A left-over entry of its handle: log entry 52.) -/
def Obligations.CancelCaseByPhase : Prop :=
  ∀ (bs : List Byte) (h : Handle) (x : CaseRecord) (c : Control) (s : State),
    s.inHand 0x02 c → c.params = some bs → bs.length = 3 → h = readHandle bs → s.named h = some x →
    ∃ t, exec .cancelCase s = .next t ∧
      let voided := s.taken.withCase h.slot { x with phase := .voiding }
      match x.phase with
      | .opening =>
        if s.sendingDelta h .add then
          State.answered
            { voided with
              listQueue := s.listQueue.map
                (fun e => if e.handle = h ∧ e.kind = .add then { e with cancelled := true } else e) }
            c (.reply (.cancelled h (some .voiding))) t
        else
          State.answered
            (State.freed h.slot
              { s.taken with listQueue := s.listQueue.eraseP (fun e => e.handle = h ∧ e.kind = .add) })
            c (.reply (.cancelled h none)) t
      | .listed | .anchored | .held | .stalled .listed =>
        State.answered
          (State.released h .offer { voided with listQueue := s.listQueue ++ [⟨h, .remove, false⟩] })
          c (.reply (.cancelled h (some .voiding))) t
      | .bound | .settled | .stalled .bound | .voiding => s.taken.answered c (.reject .wrongPhase) t

/-- R36: READ CASE answers a SUMMARY of the case as it stands and then its REPLY; a card that no live case holds
is answered "not found". It changes no table. -/
def Obligations.ReadCaseAnswersSummary : Prop :=
  ∀ (c : Control) (name : CaseName) (s : State),
    s.inHand 0x07 c → readCaseName c.params = some name →
    (∀ n x, (name = .byHandle (s.handleAt n) ∧ n ≤ 2111 ∨
        ∃ card, name = .byCard card ∧ card ≠ 0 ∧ lookup card s = some n) →
      s.caseAt n = some x →
      let summary := Answer.summary
        { handle := s.handleAt n
          case := { x with window := ⟨x.window.base, []⟩, offer := none }
          windowPresent := (List.range 32).countP (fun i => (x.window.at i).isSome)
          offerPending := (s.emission (s.handleAt n) .offer).isSome
          settlementEmitted := x.phase == .settled && (s.emission (s.handleAt n) .settlement).isNone }
      let reply := s.response c (.reply (.caseFound (s.handleAt n) x.phase))
      ∃ t, exec .readCase s = .next t ∧ t.tables = s.tables ∧ s.taken.answeredWith [summary, reply] t ∧
        (s.calm = true → s.placesAtOnce = true → s.insertQueue.length < 63 →
          t = ({ s.taken with insertQueue := s.insertQueue ++ [.answer summary, .answer reply] } : State).begun)) ∧
    (∀ card, name = .byCard card → card ≠ 0 → lookup card s = none →
      ∃ t, exec .readCase s = .next t ∧ s.taken.answered c (.reply .caseNotFound) t) ∧
    (name = .byCard 0 → ∃ t, exec .readCase s = .next t ∧ s.taken.answered c (.reject .badField) t)

/-! ### Attribution (03_attributing_records_to_cases.md) -/

/-- R12, R38 to R42, R61, R178: a record that reaches no case. A malformed one goes on with a trailer that says so
and changes nothing; a valid one is checked against its feed, and carries a trailer only where it breaches its
feed's sweep. In BYPASS mode a record goes on as it arrived, and its card's case gains BYPASSED. (Bits 4 to 7 of a
trailer's first byte: log entry 50.) -/
def Obligations.UnattributedRecordGoesOn : Prop :=
  ∀ (f : Frame) (rest : List Frame) (s : State),
    s.isActive = true → s.station.rx = f :: rest → f.kind ∈ [kindUse, kindLoad, kindSale] → s.upQueue.length < 256 →
    let sent (e : State) (g : Frame) : Prop :=
      ∃ t, exec .attributeRecord s = .next t ∧
        ({ e with station := { s.station with rx := rest }, upQueue := s.upQueue ++ [g] } : State).ended t
    (s.mode = .attributing →
      ((CardRecord.ofFrame f).filter (·.valid) = none →
        sent s { f with flags := f.flags ||| 1, trailer := [2, 0, 0, 0, 6] }) ∧
      (∀ r, CardRecord.ofFrame f = some r → r.valid = true → lookup r.card s = none →
        sent (s.feedChecked r)
          (if (s.feedAt r.feed).active = true ∧ r.time ≤ (s.feedAt r.feed).sweep then
            { f with flags := f.flags ||| 1, trailer := [8, 0, 0, 0, 0] }
           else f))) ∧
    (s.mode = .bypass →
      ((f.body.length < 6 ∨ lookup (fieldAt 0 6 f.body) s = none) → sent s f) ∧
      (∀ n c, 6 ≤ f.body.length → lookup (fieldAt 0 6 f.body) s = some n → s.caseAt n = some c →
        sent (s.withCase n { c with flags := { c.flags with bypassed := true } }) f))

/-- R12, R38, R40, R49, R51, R54: a valid record of a live case's card. The feed is checked, the case takes what
`measured` decides, the notices are counted, a case that leaves ANCHORED for HELD loses its OFFER entry, and the
record goes on with its handle, class and marks. (Bits 4 to 7 of a trailer's first byte: log entry 50.) -/
def Obligations.AttributedRecordReachesItsCase : Prop :=
  ∀ (f : Frame) (rest : List Frame) (r : CardRecord) (n : Nat) (c : CaseRecord) (s : State),
    s.isActive = true → s.mode = .attributing → s.station.rx = f :: rest →
    f.kind ∈ [kindUse, kindLoad, kindSale] → s.upQueue.length < 256 →
    CardRecord.ofFrame f = some r → r.valid = true → lookup r.card s = some n → s.caseAt n = some c →
    ∃ t, exec .attributeRecord s = .next t ∧
      let fd := s.feedAt r.feed
      let a := measured s.policy.owned s.injector fd r c
      let h := s.handleAt n
      let s1 := s.feedChecked r
      let n1 := if a.lateRecord then s1.notices.counted .lateRecord (.handle h) else s1.notices
      let n2 := if a.blockedUse then n1.counted .blockedUse (.handle h) else n1
      let s2 : State := { s1.withCase n a.case with notices := n2 }
      let s3 : State :=
        if c.phase = .anchored ∧ a.case.phase = .held then
          { s2.released h .offer with notices := n2.counted .caseHeld (.handle h) }
        else s2
      let marks : Byte :=
        3 ||| (if a.stale then 4 else 0) ||| (if fd.active = true ∧ r.time ≤ fd.sweep then 8 else 0)
      ({ s3 with
          station := { s.station with rx := rest }
          upQueue := s.upQueue ++
            [{ f with
                flags := f.flags ||| 1
                trailer := [marks, BitVec.ofNat 8 (n / 256), BitVec.ofNat 8 n, h.use, a.cls.code] }] } :
        State).ended t

/-- R44, R46, R47, R51: a duplicate raises its count alone. A record behind the window is marked stale, raises the
stale-sequence count, and leaves the window, the contracts and every other count as they were; a pre-report one newer
than the anchor moves it, and an ANCHORED case then gains LATE_ANCHOR and goes to HELD (for which CASE_HELD is counted:
`AttributedRecordReachesItsCase`). Neither is counted as LATE_RECORD or BLOCKED_USE. -/
def Obligations.DuplicateAndStaleRecords : Prop :=
  ∀ (owned : BitVec 5) (inj : Injector) (fd : Feed) (r : CardRecord) (c : CaseRecord),
    let d := (r.seq - c.window.base).toNat
    let a := measured owned inj fd r c
    (d < 32 → (c.window.at d).isSome = true →
      a = ⟨{ c with tally := { c.tally with duplicates := min 65535 (c.tally.duplicates + 1) } }, .duplicate,
            false, false, false⟩) ∧
    (32768 ≤ d →
      a.stale = true ∧ a.lateRecord = false ∧ a.blockedUse = false ∧
      a.cls =
        (if r.time ≤ c.tr then
          (match c.phase.standing with
           | .awaiting | .voiding => .preReport
           | .anchored | .bound => .latePreReport)
         else if blockedBy inj fd r c then .blockedUse else .postReport) ∧
      let moves := r.time ≤ c.tr ∧ newer r.seq c.anchor.seq = true
      let moved : CaseRecord :=
        { c with tally := { c.tally with staleSequences := min 65535 (c.tally.staleSequences + 1) } }
      a.case =
        match c.phase.standing with
        | .awaiting => if moves then { moved with anchor := ⟨r.seq, r.post, some r.time, .record⟩ } else moved
        | .anchored =>
          if moves then
            { moved with anchor := ⟨r.seq, r.post, some r.time, .record⟩, phase := .held
                         flags := { c.flags with lateAnchor := true } }
          else moved
        | .bound | .voiding => moved)

/-- R44, R45, R48, R59, R60: a record in a free place of the window or ahead of it is placed. The window slides so
far that the record stands in its top place, keeps every sequence it still covers, and CHAIN_BREAK is set by a
balance that does not link to a neighbour or by a record on the wrong side of the report. -/
def Obligations.PlacedRecordEntersTheWindow : Prop :=
  ∀ (owned : BitVec 5) (inj : Injector) (fd : Feed) (r : CardRecord) (c : CaseRecord),
    c.window.inRange = true →
    let d := (r.seq - c.window.base).toNat
    let w := (measured owned inj fd r c).case.window
    let i := if d < 32 then d else 31
    let effect : Int :=
      match r.detail with
      | .use slot debit _ _ _ _ _ => if slot = 4 then -(debit : Int) else 0
      | .load _ amount => amount
      | .sale _ _ _ payment _ _ _ => -(payment : Int)
    ((d < 32 ∧ c.window.at d = none) ∨ (32 ≤ d ∧ d ≤ 32767)) →
      w.inRange = true ∧ w.base = (if d < 32 then c.window.base else r.seq - 31) ∧
      w.at i = some ⟨r.post, effect, decide (r.time ≤ c.tr)⟩ ∧
      (∀ q : Count16, q ≠ r.seq → (q - w.base).toNat < 32 →
        w.at (q - w.base).toNat = c.window.at (q - c.window.base).toNat) ∧
      ((measured owned inj fd r c).case.flags.chainBreak = true ↔
        c.flags.chainBreak = true ∨
        (∃ b, 1 ≤ i ∧ w.at (i - 1) = some b ∧ b.post + effect ≠ r.post) ∨
        (∃ b, w.at (i + 1) = some b ∧ r.post + b.effect ≠ b.post) ∨
        ∃ j b, w.at j = some b ∧
          ((r.time ≤ c.tr ∧ j < i ∧ b.preReport = false) ∨ (c.tr < r.time ∧ i < j ∧ b.preReport = true)))

/-- R49 to R53: what a pre-report record placed in the window does, by the phase of its case. Before anchoring the
newest becomes the anchor and the contracts follow SALEs and USEs; in ANCHORED and HELD the newest re-anchors and
holds the case; later, and in VOIDING, neither moves. -/
def Obligations.PreReportRecordByPhase : Prop :=
  ∀ (owned : BitVec 5) (inj : Injector) (fd : Feed) (r : CardRecord) (c : CaseRecord),
    let d := (r.seq - c.window.base).toNat
    let a := measured owned inj fd r c
    let isNewer := newer r.seq c.anchor.seq
    let late : Tally := { c.tally with latePreReports := min 65535 (c.tally.latePreReports + 1) }
    let seen : CaseRecord :=
      { c with window := a.case.window, flags := { c.flags with chainBreak := a.case.flags.chainBreak } }
    ((d < 32 ∧ c.window.at d = none) ∨ (32 ≤ d ∧ d ≤ 32767)) → r.time ≤ c.tr →
      a.stale = false ∧ a.blockedUse = false ∧
      match c.phase.standing with
      | .awaiting =>
        a.cls = .preReport ∧ a.lateRecord = false ∧
        a.case =
          { seen with
            contracts := a.case.contracts
            anchor := if isNewer then ⟨r.seq, r.post, some r.time, .record⟩ else c.anchor } ∧
        (match r.detail with
         | .load _ _ => a.case.contracts = c.contracts
         | .sale slot product price _ vf vt trips =>
           ∀ j, SMap.look a.case.contracts j =
             if j = slot ∧ (SMap.look c.contracts slot).all (fun k => newer r.seq k.last) = true then
               some ⟨product, some price, vf, vt, trips, r.seq⟩
             else SMap.look c.contracts j
         | .use slot _ vf vt trips _ _ =>
           ∀ j, SMap.look a.case.contracts j =
             if j = slot ∧ slot ≤ 3 then
               (SMap.look c.contracts slot).map (fun k =>
                 if newer r.seq k.last then
                   { k with validFrom := vf.or k.validFrom, validTo := vt.or k.validTo, trips := trips.or k.trips
                            last := r.seq }
                 else k)
             else SMap.look c.contracts j)
      | .anchored =>
        a.cls = .latePreReport ∧ a.lateRecord = true ∧
        a.case =
          (if isNewer then
            { seen with
              tally := late
              anchor := ⟨r.seq, r.post, some r.time, .record⟩
              phase := .held
              flags := { c.flags with chainBreak := a.case.flags.chainBreak, lateAnchor := true } }
           else { seen with tally := late })
      | .bound => a.cls = .latePreReport ∧ a.lateRecord = true ∧ a.case = { seen with tally := late }
      | .voiding => a.cls = .preReport ∧ a.lateRecord = false ∧ a.case = seen

/-- R54 to R58, R96: what a post-report record placed in the window does in any phase: it enters the tally, each
count and sum stopping at its maximum. A USE is blocked by its validator's list, its feed's cleared version or an
acknowledgement, once the case has a list version. -/
def Obligations.PostReportRecordEntersTally : Prop :=
  ∀ (owned : BitVec 5) (inj : Injector) (fd : Feed) (r : CardRecord) (c : CaseRecord),
    let d := (r.seq - c.window.base).toNat
    let a := measured owned inj fd r c
    let y := c.tally
    ((d < 32 ∧ c.window.at d = none) ∨ (32 ≤ d ∧ d ≤ 32767)) → c.tr < r.time →
      a.stale = false ∧ a.lateRecord = false ∧
      a.case =
        { c with
          window := a.case.window
          tally := a.case.tally
          flags := { c.flags with
            chainBreak := a.case.flags.chainBreak, lateCreditCapped := a.case.flags.lateCreditCapped } } ∧
      match r.detail with
      | .use _ debit _ _ _ epoch version =>
        let blocked :=
          ∃ lv, c.listVersion = some lv ∧
            ((∃ v, inj.epoch.isSome = true ∧ epoch = inj.epoch ∧ version = some v ∧ lv ≤ min v inj.counter) ∨
             (fd.active = true ∧ lv ≤ fd.cleared) ∨
             (fd.active = true ∧ ∃ k ∈ fd.ring, lv ≤ k.version ∧ k.time ≤ r.time))
        a.case.flags.lateCreditCapped = c.flags.lateCreditCapped ∧
        (blocked →
          a.cls = .blockedUse ∧ a.blockedUse = true ∧
            a.case.tally = { y with blockedUses := min 65535 (y.blockedUses + 1) }) ∧
        (¬blocked →
          a.cls = .postReport ∧ a.blockedUse = false ∧
            a.case.tally = { y with uses := min 65535 (y.uses + 1), debitSum := min 16777215 (y.debitSum + debit) })
      | .load kind amount =>
        a.cls = .postReport ∧ a.blockedUse = false ∧
        if owned.getLsbD (kind - 1) then
          a.case.tally = { y with lateCredit := min 16777215 (y.lateCredit + amount) } ∧
          a.case.flags.lateCreditCapped =
            (c.flags.lateCreditCapped || decide (16777215 < y.lateCredit + amount))
        else
          a.case.tally =
            { y with loads := min 65535 (y.loads + 1), loadSum := min 16777215 (y.loadSum + amount) } ∧
          a.case.flags.lateCreditCapped = c.flags.lateCreditCapped
      | .sale _ _ _ _ _ _ _ =>
        a.cls = .postReport ∧ a.blockedUse = false ∧
        a.case.tally = { y with sales := min 65535 (y.sales + 1) } ∧
        a.case.flags.lateCreditCapped = c.flags.lateCreditCapped

/-! ### Time, feeds and progress (04_time_feeds_and_progress.md) -/

/-- R67, R178: what a SWEEP of a feed and a time does. The record goes on unchanged in every case. (An ACTIVE feed that part-copied tables hold below H or Vs lowers
them: log entry 42.) -/
def Obligations.SweepAdvancesItsFeed : Prop :=
  ∀ (f : Frame) (rest : List Frame) (s : State),
    s.isActive = true → s.station.rx = f :: rest → f.kind = kindSweep → s.upQueue.length < 256 →
    let s0 : State := { s with station := { s.station with rx := rest }, upQueue := s.upQueue ++ [f] }
    let leaves (e : State) : Prop := ∃ t, exec .sweep s = .next t ∧ e.ended t
    (f.body.length ≠ 5 → leaves s0) ∧
    (f.body.length = 5 →
      let n := fieldAt 0 1 f.body
      let v := min (fieldAt 1 4 f.body) (s.clock.time + s.policy.futureSlack)
      let x := s.feedAt n
      (63 < n → leaves s0) ∧
      (n ≤ 63 → x.active = false →
        leaves (s0.withFeedFault n { x with unadmitted := min 65535 (x.unadmitted + 1) } .unadmittedFeed)) ∧
      (n ≤ 63 → x.active = true → v ≤ x.sweep →
        leaves (s0.withFeedFault n { x with regresses := min 65535 (x.regresses + 1) } .sweepRegress)) ∧
      (n ≤ 63 → x.active = true → x.sweep < v →
        leaves (State.recomputed
          { s0 with feeds := SMap.setD s.feeds {} n ({ x with sweep := v } : Feed).clearRing })))

/-- R69, R70, R178: what a LISTACK does. The record goes on unchanged in every case. (An ACTIVE feed that part-copied tables hold below H or Vs lowers
them: log entry 42.) -/
def Obligations.ListackEntersItsRing : Prop :=
  ∀ (f : Frame) (rest : List Frame) (s : State),
    s.isActive = true → s.station.rx = f :: rest → f.kind = kindListack → s.upQueue.length < 256 →
    let s0 : State := { s with station := { s.station with rx := rest }, upQueue := s.upQueue ++ [f] }
    let leaves (e : State) : Prop := ∃ t, exec .listack s = .next t ∧ e.ended t
    (f.body.length ≠ 13 → leaves s0) ∧
    (f.body.length = 13 →
      let n := fieldAt 0 1 f.body
      let v := min (fieldAt 5 4 f.body) s.injector.counter
      let time := fieldAt 9 4 f.body
      let x := s.feedAt n
      let ignored :=
        s.injector.epoch ≠ some (fieldAt 1 4 f.body) ∨ (∃ k ∈ x.ring, v ≤ k.version) ∨ v ≤ x.cleared
      let entered : Feed :=
        { x with ring := (if x.ring.length < 8 then x.ring else x.ring.dropLast) ++ [⟨v, time⟩] }
      (63 < n → leaves s0) ∧
      (n ≤ 63 → x.active = false →
        leaves (s0.withFeedFault n { x with unadmitted := min 65535 (x.unadmitted + 1) } .unadmittedFeed)) ∧
      (n ≤ 63 → x.active = true → ignored →
        leaves (s0.withFeedFault n { x with acksIgnored := min 65535 (x.acksIgnored + 1) } .ackIgnored)) ∧
      (n ≤ 63 → x.active = true → ¬ignored →
        if time ≤ x.sweep then
          leaves (State.recomputed { s0 with feeds := SMap.setD s.feeds {} n entered.clearRing })
        else leaves { s0 with feeds := SMap.setD s.feeds {} n entered }))

/-- R68, R71: clearing takes the entries at or before the sweep time and every entry of a version at or below the
highest of them, which the cleared version reaches; H and Vs are the lowest of the ACTIVE feeds, and keep their
values when there is none. (A lowest value below the H or Vs held: log entry 42.) -/
def Obligations.ClearingAndMinima : Prop :=
  (∀ f : Feed,
    f.clearRing.ring = f.ring.filter (fun e => f.ring.all (fun a => decide (f.sweep < a.time ∨ a.version < e.version))) ∧
    f.clearRing.sweep = f.sweep ∧ f.cleared ≤ f.clearRing.cleared ∧
    (∀ a ∈ f.ring, a.time ≤ f.sweep → a.version ≤ f.clearRing.cleared) ∧
    (f.clearRing.cleared = f.cleared ∨ ∃ a ∈ f.ring, a.time ≤ f.sweep ∧ a.version = f.clearRing.cleared)) ∧
  (∀ s : State,
    ((∀ e ∈ s.feeds, e.2.active = false) → s.minima = s.horizon) ∧
    (∀ e ∈ s.feeds, e.2.active = true →
      s.minima.h ≤ e.2.sweep ∧ s.minima.vs ≤ e.2.cleared ∧
      (∃ x ∈ s.feeds, x.2.active = true ∧ x.2.sweep = s.minima.h) ∧
      ∃ x ∈ s.feeds, x.2.active = true ∧ x.2.cleared = s.minima.vs))

/-- R71: H and Vs never decrease in an event that is neither a POWER-ON or PIN reset nor a mirror write, and stay at
or below the values of every ACTIVE feed, where they did so before it. (Tables that an interrupted RESYNC PARTNER left
may hold a feed below them: log entry 42.) -/
def Obligations.HorizonNeverFalls : Prop :=
  ∀ (i : Instr) (rest : List Instr) (s t : State),
    s.pending = i :: rest → (∀ straps, i ≠ .powerOnReset straps ∧ i ≠ .pinReset straps) →
    (∀ good m, i ≠ .mirrorWrite good m) → s.horizonSound → step s = .next t →
    t.horizonSound ∧ s.horizon.h ≤ t.horizon.h ∧ s.horizon.vs ≤ t.horizon.vs

/-- R63 to R65: a TIME record sets an unset clock and puts a set one forward, never back; a tick adds a second to a
set clock, up to its maximum; and crossing a minute triggers the walk. The TIME record goes on unchanged. (A body
that is not 4 bytes: log entry 6.) -/
def Obligations.ClockIsSetAndAdvances : Prop :=
  (∀ (f : Frame) (rest : List Frame) (s : State),
    s.isActive = true → s.centre.rx = f :: rest → f.kind = kindTime → s.downQueue.length < 128 →
    f.body.length = 4 →
    ∃ t, exec .time s = .next t ∧
      let v := fieldAt 0 4 f.body
      let s0 : State := { s with centre := { s.centre with rx := rest }, downQueue := s.downQueue ++ [f] }
      if s.clock.isSet = false ∨ s.clock.time < v then
        ({ s0 with
            clock := ⟨v, true⟩
            walk := if s.clock.time / 60 < v / 60 then s.triggered else s.walk } : State).ended t
      else if v < s.clock.time then
        ({ s0 with notices := s.notices.counted .timeRegress (.line .centre) } : State).ended t
      else s0.ended t) ∧
  (∀ (f : Frame) (rest : List Frame) (s : State),
    s.isActive = true → s.centre.rx = f :: rest → f.kind = kindTime → s.downQueue.length < 128 →
    ∃ t, exec .time s = .next t ∧ t.downQueue = s.downQueue ++ [f] ∧ t.centre.rx = rest) ∧
  (∀ s : State, s.clock.isSet = true →
    ∃ t, exec .clockTick s = .next t ∧
      let v := min 4294967295 (s.clock.time + 1)
      ({ s with
          clock := ⟨v, true⟩
          walk := if s.clock.time / 60 < v / 60 then s.triggered else s.walk } : State).ended t) ∧
  (∀ s : State, s.clock.isSet = false → exec .clockTick s = .next s)

/-- R72 to R74: what ADMIT FEED, RETIRE FEED and READ FEED do and answer, and how they are refused. (An ACTIVE feed that part-copied tables hold below H or Vs lowers
them: log entry 42.) -/
def Obligations.FeedCommands : Prop :=
  (∀ (c : Control) (bs : List Byte) (s : State), s.inHand 0x10 c → c.params = some bs → bs.length = 5 →
    let n := fieldAt 0 1 bs
    let x : Feed :=
      { s.feedAt n with
        active := true
        sweep := max (min (fieldAt 1 4 bs) (s.clock.time + s.policy.futureSlack)) s.horizon.h
        cleared := s.horizon.vs
        ring := [] }
    let e := State.recomputed { s.taken with feeds := SMap.setD s.feeds {} n x }
    ∃ t, exec .admitFeed s = .next t ∧
      if 63 < n then s.taken.answered c (.reject .badField) t
      else if (s.feedAt n).active then s.taken.answered c (.reject .feedActive) t
      else e.answered c (.reply (.admitted n x.sweep x.cleared e.horizon)) t) ∧
  (∀ (c : Control) (bs : List Byte) (s : State), s.inHand 0x11 c → c.params = some bs → bs.length = 1 →
    let n := fieldAt 0 1 bs
    let e := State.recomputed
      { s.taken with feeds := SMap.setD s.feeds {} n { s.feedAt n with active := false, ring := [] } }
    ∃ t, exec .retireFeed s = .next t ∧
      if 63 < n then s.taken.answered c (.reject .badField) t
      else if (s.feedAt n).active then e.answered c (.reply (.retired n e.horizon)) t
      else s.taken.answered c (.reject .feedAbsent) t) ∧
  (∀ (c : Control) (bs : List Byte) (s : State), s.inHand 0x12 c → c.params = some bs → bs.length = 1 →
    ∃ t, exec .readFeed s = .next t ∧
      if 63 < fieldAt 0 1 bs then s.taken.answered c (.reject .badField) t
      else s.taken.answered c (.reply (.feedRead (s.feedAt (fieldAt 0 1 bs)) s.horizon)) t)

/-- R76 to R78, R81, R82, R120: a visit of the walk moves on to the next slot, and acts on the slot's case by its
phase. (A left-over SETTLEMENT entry: log entry 52.) -/
def Obligations.WalkVisitsEachSlot : Prop :=
  ∀ (p : Nat) (again : Bool) (s : State), s.isActive = true → s.walk = some ⟨p, again⟩ →
    ∃ t, exec .walkVisit s = .next t ∧
      let e : State :=
        { s with
          walk := if p < 2111 then some ⟨p + 1, again⟩ else if again then some ⟨0, false⟩ else none }
      match s.caseAt p with
      | none => e.ended t
      | some c =>
        let f : CaseRecord :=
          if c.listVersion.any (fun v => decide (v ≤ s.horizon.vs)) then
            { c with flags := { c.flags with tallyFinal := true } }
          else c
        let kept := if f = c then e else e.withCase p f
        let due := c.tr + s.policy.settleLimit * 86400 ≤ s.clock.time ∧ c.flags.stalledOnce = false
        let stalled (source : StalledFrom) : State :=
          { e.withCase p { f with phase := .stalled source, flags := { f.flags with stalledOnce := true } } with
            notices := s.notices.counted .caseStalled (.handle (s.handleAt p)) }
        match c.phase with
        | .opening | .voiding => e.ended t
        | .anchored | .held => kept.ended t
        | .listed =>
          if c.tr ≤ s.horizon.h then (e.withAnchored p f).ended t
          else if due then (stalled .listed).ended t
          else kept.ended t
        | .stalled .listed => if c.tr ≤ s.horizon.h then (e.withAnchored p f).ended t else kept.ended t
        | .bound =>
          if f.flags.tallyFinal then (e.withSettled p f).ended t
          else if due then (stalled .bound).ended t
          else kept.ended t
        | .stalled .bound => if f.flags.tallyFinal then (e.withSettled p f).ended t else kept.ended t
        | .settled =>
          if (s.emission (s.handleAt p) .settlement).isNone = true ∧ s.policy.retentionDays ≠ 0 ∧
              c.settleTime.any (fun v => decide (v + s.policy.retentionDays * 86400 ≤ s.clock.time)) = true then
            (e.freed p).ended t
          else e.ended t

/-- R79, R80, R104, R111: the anchoring step. The window behind a RECORD anchor must be whole, a product of kind
NONE is unknown, and any holding flag holds the case with no offer; otherwise it is ANCHORED with the next offer
number and an offer computed from it. -/
def Obligations.AnchoringHoldsOrOffers : Prop :=
  ∀ (entry : Nat → Product) (p : Policy) (c : CaseRecord),
    let d := (c.anchor.seq - c.window.base).toNat
    let y := anchored entry p c
    let hole := c.anchor.source = .record ∧ d < 32 ∧ ∃ i ≤ d, c.window.at i = none
    let passed := c.anchor.source = .record ∧ 32 ≤ d
    let unknown := ∃ k ∈ c.contracts, (entry k.2.product).kind = .none
    (y.flags.hole = true ↔ c.flags.hole = true ∨ hole) ∧
    (y.flags.windowPassed = true ↔ c.flags.windowPassed = true ∨ passed) ∧
    (y.flags.unknownProduct = true ↔ c.flags.unknownProduct = true ∨ unknown) ∧
    let marked : CaseFlags :=
      { c.flags with
        hole := y.flags.hole, windowPassed := y.flags.windowPassed, unknownProduct := y.flags.unknownProduct }
    if c.flags.chainBreak = true ∨ y.flags.hole = true ∨ y.flags.windowPassed = true ∨ c.flags.bypassed = true ∨
        y.flags.unknownProduct = true then
      y = { c with phase := .held, flags := marked }
    else
      y = { c with
            phase := .anchored
            offerNumber := min 65535 (c.offerNumber + 1)
            offer := some (computeOffer entry p (min 65535 (c.offerNumber + 1)) c)
            flags := { marked with
              lateCreditCapped :=
                c.flags.lateCreditCapped || decide (16777215 < c.pendingCredit + c.tally.lateCredit) } }

/-! ### The urgent list channel (05_the_urgent_list_channel.md) -/

/-- R31, R87 to R89, R91: a delta whose transmission completes is injected. The counter takes its version, an unset
epoch the epoch it carries, its entry leaves the List Queue, and the line counts it. An ADD gives its case the list
version; the case is LISTED, and anchored at once where H has reached its report time; but one whose entry is
cancelled stays in VOIDING and gains a REMOVE entry. A REMOVE frees its case's slot. (A handle that names no case:
log entry 18; a live case that is not in OPENING, or not in VOIDING where the ADD was cancelled or for a REMOVE: log
entry 33, the model's choice; a left-over entry of its handle: log entry 52.) -/
def Obligations.AddAndRemoveInjected : Prop :=
  ∀ (d : Delta) (s : State), s.station.tx = .delta d →
    let sent : State :=
      { s with
        station := { s.station with
          tx := .idle
          counters := { s.station.counters with inserted := min 4294967295 (s.station.counters.inserted + 1) } }
        injector := ⟨some (s.injector.epoch.getD d.epoch), d.version⟩
        listQueue := s.listQueue.eraseP (fun e => e.handle = d.handle ∧ e.kind = d.kind) }
    match d.kind with
    | .add =>
      ∃ t, exec .addInjected s = .next t ∧
        (match s.named d.handle with
         | none => sent.ended t
         | some c =>
           if (s.listQueue.find? (fun e => e.handle = d.handle ∧ e.kind = .add)).any (·.cancelled) then
             ({ sent.withCase d.handle.slot { c with listVersion := some d.version } with
                 listQueue := sent.listQueue ++ [⟨d.handle, .remove, false⟩] } : State).ended t
           else if c.tr ≤ s.horizon.h then
             (sent.withAnchored d.handle.slot { c with listVersion := some d.version, phase := .listed }).ended t
           else
             (sent.withCase d.handle.slot { c with listVersion := some d.version, phase := .listed }).ended t)
    | .remove =>
      ∃ t, exec .removeInjected s = .next t ∧
        (if (s.named d.handle).isSome then (sent.freed d.handle.slot).ended t else sent.ended t)

/-! ### Restoration (06_restoration_arithmetic.md) -/

/-- R105, R109, R110: the report day, the late credit, the fee, and the purse value with its excess and its debt, of
which each computation gives P + E − D = Ba + L + C − Fc. -/
def Obligations.OfferFeeAndPurse : Prop :=
  ∀ (entry : Nat → Product) (p : Policy) (number : Nat) (c : CaseRecord),
    let o := computeOffer entry p number c
    let k : Int := p.purseCeiling
    let od : Int := p.overdraftLimit
    let base : Int := c.anchor.balance + o.lateCredit + o.conversion
    let g : Int := base - o.fee
    o.number = number ∧
    o.reportDay = (if c.tr < p.serviceDayOffset then 0 else (c.tr - p.serviceDayOffset) / 86400) ∧
    o.anchorSeq = c.anchor.seq ∧ o.anchorBalance = c.anchor.balance ∧ o.anchorSource = c.anchor.source ∧
    o.lateCredit = min 16777215 (c.pendingCredit + c.tally.lateCredit) ∧
    (o.fee : Int) = min (if c.feeWaived then 0 else (p.replacementFee : Int)) (max 0 base) ∧
    (k < g → o.purse = k ∧ (o.excess : Int) = g - k ∧ o.debt = 0 ∧ o.ceilingClamped = true ∧
      o.floorClamped = false) ∧
    (-od ≤ g → g ≤ k → o.purse = g ∧ o.excess = 0 ∧ o.debt = 0 ∧ o.ceilingClamped = false ∧
      o.floorClamped = false) ∧
    (g < -od → o.purse = -od ∧ o.excess = 0 ∧ (o.debt : Int) = -od - g ∧ o.ceilingClamped = false ∧
      o.floorClamped = true) ∧
    o.purse + o.excess - o.debt = base - o.fee

/-- R106 to R108: each contract of an offer is treated and counted once: the offer lists those carried in kind, in the
order of their slots, and counts those converted, dropped and expired. Its extent is measured by the kind of its product and
capped at the product's total; one with no extent left is expired; the others are carried, converted or dropped by
the restore mode. A credit is the greatest multiple of RefundStep not above price × extent / total, less the
convert fee while that is above 0. -/
def Obligations.ContractsInOffers : Prop :=
  (∀ (entry : Nat → Product) (p : Policy) (number : Nat) (c : CaseRecord),
    let o := computeOffer entry p number c
    let treated := c.contracts.map (fun x => treat p o.reportDay (entry x.2.product) x.1 x.2)
    o.inKind = treated.filterMap (fun y => match y with
      | .carried k => some k
      | .expired | .converted _ | .dropped => none) ∧
    o.converted = treated.countP (fun y => match y with
      | .converted _ => true
      | .expired | .carried _ | .dropped => false) ∧
    o.dropped = treated.countP (fun y => decide (y = .dropped)) ∧
    o.expired = treated.countP (fun y => decide (y = .expired)) ∧
    o.inKind.length + o.converted + o.dropped + o.expired = c.contracts.length ∧
    o.conversion =
      ((c.contracts.filter (fun x =>
          (entry x.2.product).kind != .none && extent o.reportDay (entry x.2.product) x.2 != 0 &&
            (entry x.2.product).restore == .convert)).map
        (fun x => convertCredit p o.reportDay (entry x.2.product) x.2)).sum) ∧
  (∀ (dr : Nat) (e : Product) (k : Contract),
    extent dr e k ≤ e.total ∧
    (e.kind = .carnet → extent dr e k = min (k.trips.getD 0) e.total) ∧
    (e.kind = .rolling → k.validFrom = none → extent dr e k = e.total) ∧
    ((e.kind = .calendar ∨ (e.kind = .rolling ∧ k.validFrom.isSome = true)) →
      let start : Int := match k.validFrom with
        | some d => max (d : Int) dr
        | none => dr
      let stop : Int := match k.validTo, k.validFrom with
        | some d, _ => d
        | none, some d => (d : Int) + e.total - 1
        | none, none => (dr : Int) + e.total - 1
      (extent dr e k : Int) = min (max 0 (stop - start + 1)) e.total)) ∧
  (∀ (p : Policy) (dr : Nat) (e : Product) (slot : Nat) (k : Contract),
    treat p dr e slot k =
      if e.kind = .none then .dropped
      else if extent dr e k = 0 then .expired
      else
        match e.restore with
        | .drop => .dropped
        | .convert => .converted (convertCredit p dr e k)
        | .inKind =>
          .carried ⟨slot, k.product, k.validFrom, k.validTo,
            if e.kind = .carnet then some (extent dr e k) else k.trips⟩) ∧
  (∀ (p : Policy) (dr : Nat) (e : Product) (k : Contract), 1 ≤ p.refundStep → 1 ≤ e.total →
    ∃ w, p.refundStep ∣ w ∧ w * e.total ≤ k.price.getD e.listPrice * extent dr e k ∧
      k.price.getD e.listPrice * extent dr e k < (w + p.refundStep) * e.total ∧
      convertCredit p dr e k = w - e.convertFee)

/-- R112, R113: ACCEPT CASE of a case. WAIT reads a HELD case and changes nothing; AS_IS releases it, its six holding
flags cleared, to ANCHORED with a new offer. -/
def Obligations.AcceptCaseReleases : Prop :=
  ∀ (bs : List Byte) (h : Handle) (x : CaseRecord) (c : Control) (s : State),
    s.inHand 0x03 c → c.params = some bs → bs.length = 4 → h = readHandle bs → s.named h = some x →
    ∃ t, exec .acceptCase s = .next t ∧
      let choice := fieldAt 3 1 bs
      let number := min 65535 (x.offerNumber + 1)
      let y : CaseRecord :=
        { x with
          phase := .anchored
          offerNumber := number
          offer := some (computeOffer s.productAt s.policy number x)
          flags :=
            { chainBreak := false, hole := false, windowPassed := false, bypassed := false
              unknownProduct := false, lateAnchor := false, tallyFinal := x.flags.tallyFinal
              stalledOnce := x.flags.stalledOnce, forced := x.flags.forced
              lateCreditCapped :=
                x.flags.lateCreditCapped || decide (16777215 < x.pendingCredit + x.tally.lateCredit) } }
      if choice ≠ 1 ∧ choice ≠ 2 then s.taken.answered c (.reject .badField) t
      else if x.phase ≠ .held then s.taken.answered c (.reject .wrongPhase) t
      else if choice = 2 then s.taken.answered c (.reply (.accepted h .held x.flags x.offerNumber)) t
      else
        State.answered ((s.taken.withCase h.slot y).withOfferEntry h) c
          (.reply (.accepted h .anchored x.flags number)) t

/-- R102, R103: SET POLICY writes each setting it carries, clamped into its range, keeps every other, and answers all
nine as they then stand; READ POLICY answers them and changes nothing. -/
def Obligations.PolicyIsSetAndRead : Prop :=
  (∀ (c : Control) (q : PolicyParams) (s : State), s.inHand 0x20 c → readPolicy c.params = some q →
    let clamp (lo hi held : Nat) (carried : Option Nat) : Nat :=
      match carried with
      | none => held
      | some v => if v < lo then lo else if hi < v then hi else v
    let p := s.policy
    let p' : Policy :=
      { purseCeiling := clamp 1 8388607 p.purseCeiling q.purseCeiling
        overdraftLimit := clamp 0 100000 p.overdraftLimit q.overdraftLimit
        replacementFee := clamp 0 100000 p.replacementFee q.replacementFee
        refundStep := clamp 1 1000 p.refundStep q.refundStep
        serviceDayOffset := clamp 0 86399 p.serviceDayOffset q.serviceDayOffset
        settleLimit := clamp 1 60 p.settleLimit q.settleLimit
        retentionDays := clamp 0 60 p.retentionDays q.retentionDays
        futureSlack := clamp 0 3600 p.futureSlack q.futureSlack
        owned := (q.owned.map (BitVec.ofNat 5)).getD p.owned }
    ∃ t, exec .setPolicy s = .next t ∧ State.answered { s.taken with policy := p' } c (.reply (.policy p')) t) ∧
  (∀ (c : Control) (s : State), s.inHand 0x21 c → c.params = some [] →
    ∃ t, exec .readPolicy s = .next t ∧ s.taken.answered c (.reply (.policy s.policy)) t)

/-- R99, R100, R143 to R145: BEGIN PRODUCT LOAD opens a session at the first code of its window; PRODUCT DATA writes
its entries at the codes from the pointer on, each as carried where its fields are in range and as NONE otherwise,
and leaves the session open; READ PRODUCT answers an entry as it stands, and ends the session. -/
def Obligations.ProductTableIsLoaded : Prop :=
  (∀ (c : Control) (bs : List Byte) (s : State), s.inHand 0x22 c → c.params = some bs → bs.length = 4 →
    let a := fieldAt 0 2 bs
    let b := fieldAt 2 2 bs
    ∃ t, exec .beginProductLoad s = .next t ∧
      if 255 < a ∨ 255 < b then s.taken.answered c (.reject .badField) t
      else
        State.answered { s.taken with cu := { s.cu with session := some ⟨a, b, a⟩ } } c
          (.reply (.loadBegun a b (if a ≤ b then b - a + 1 else 256 - a + b + 1) a)) t) ∧
  (∀ (c : Control) (rs : List RawProduct) (s : State), s.inHand 0x23 c → readProducts c.params = some rs →
    ∃ t, exec .productData s = .next t ∧
      match s.cu.session with
      | none => State.answered { s.taken with cu := s.cu } c (.reject .noLoadSession) t
      | some x =>
        let next (n : Nat) : Nat := if n = x.last then x.first else (n + 1) % 256
        let at' (i : Nat) : Nat := Nat.repeat next i x.pointer
        ∃ ps : SMap Product,
          (∀ code, SMap.getD ps {} code =
            match (List.range rs.length).reverse.find? (fun i => at' i = code) with
            | some i => (rs[i]?.bind RawProduct.checked).getD {}
            | none => s.productAt code) ∧
          State.answered
            { s.taken with products := ps, cu := { s.cu with session := some { x with pointer := at' rs.length } } }
            c (.reply (.loaded rs.length (rs.countP (fun r => r.checked.isNone)) (at' rs.length))) t) ∧
  (∀ r : RawProduct,
    (r.kind = 0 → r.checked = some {}) ∧
    (3 < r.kind → r.checked = none) ∧
    (1 ≤ r.kind → r.kind ≤ 3 →
      let inRange :=
        (r.restore = 1 ∨ r.restore = 2 ∨ r.restore = 3) ∧ r.listPrice ≤ 1000000 ∧ 1 ≤ r.total ∧
          r.total ≤ (if r.kind = 3 then 255 else 400) ∧ r.convertFee ≤ 100000
      (¬inRange → r.checked = none) ∧
      (inRange → ∃ k m, kindOf r.kind = some k ∧ restoreOf r.restore = some m ∧
        r.checked = some ⟨k, m, r.listPrice, r.total, r.convertFee⟩))) ∧
  (∀ (c : Control) (bs : List Byte) (s : State), s.inHand 0x24 c → c.params = some bs → bs.length = 2 →
    ∃ t, exec .readProduct s = .next t ∧
      if 255 < fieldAt 0 2 bs then s.taken.answered c (.reject .badField) t
      else s.taken.answered c (.reply (.product (fieldAt 0 2 bs) (s.productAt (fieldAt 0 2 bs)))) t)

/-! ### Binding, settlement and release (07_binding_settlement_and_release.md) -/

/-- R27, R117, R118, R120, R124 to R127: BIND CASE binds an ANCHORED case to a replacement card that no live case
holds, and settles it at once where its tally is final. FORCE PROGRESS takes a STALLED case past the feeds it waits
for, counts them and marks the case. CLOSE CASE frees a SETTLED case whose SETTLEMENT has been emitted. (A left-over
SETTLEMENT entry: log entry 52.) -/
def Obligations.BindForceAndClose : Prop :=
  (∀ (bs : List Byte) (h : Handle) (x : CaseRecord) (c : Control) (s : State),
    s.inHand 0x04 c → c.params = some bs → bs.length = 13 → h = readHandle bs → s.named h = some x →
    ∃ t, exec .bindCase s = .next t ∧
      let card := fieldAt 3 6 bs
      let y : CaseRecord := { x with replacement := some card, bindTime := some (fieldAt 9 4 bs), phase := .bound }
      if card = 0 then s.taken.answered c (.reject .badField) t
      else if x.phase ≠ .anchored then s.taken.answered c (.reject .wrongPhase) t
      else if (lookup card s).isSome then s.taken.answered c (.reject .duplicateCase) t
      else if x.flags.tallyFinal then
        (s.taken.withSettled h.slot y).answered c (.reply (.bound h .settled (some s.clock.time))) t
      else (s.taken.withCase h.slot y).answered c (.reply (.bound h .bound none)) t) ∧
  (∀ (bs : List Byte) (h : Handle) (x : CaseRecord) (c : Control) (s : State),
    s.inHand 0x05 c → c.params = some bs → bs.length = 3 → h = readHandle bs → s.named h = some x →
    ∃ t, exec .forceProgress s = .next t ∧
      let forced (n : Nat) : CaseRecord := { x with excluded := n, flags := { x.flags with forced := true } }
      match x.phase with
      | .stalled .listed =>
        let n := s.feeds.countP (fun e => e.2.active && decide (e.2.sweep < x.tr))
        let y := anchored s.productAt s.policy (forced n)
        (s.taken.withAnchored h.slot (forced n)).answered c (.reply (.forcedAnchor h y.phase n y.offerNumber)) t
      | .stalled .bound =>
        let n := s.feeds.countP (fun e => e.2.active && decide (e.2.cleared < x.listVersion.getD 0))
        (s.taken.withSettled h.slot (forced n)).answered c
          (.reply (.forcedSettle h .settled n (some s.clock.time))) t
      | _ => s.taken.answered c (.reject .wrongPhase) t) ∧
  (∀ (bs : List Byte) (h : Handle) (x : CaseRecord) (c : Control) (s : State),
    s.inHand 0x06 c → c.params = some bs → bs.length = 3 → h = readHandle bs → s.named h = some x →
    ∃ t, exec .closeCase s = .next t ∧
      if x.phase ≠ .settled then s.taken.answered c (.reject .wrongPhase) t
      else if (s.emission h .settlement).isSome then s.taken.answered c (.reject .emissionPending) t
      else (s.taken.freed h.slot).answered c (.reply (.closed h)) t)

/-- R33 to R35, R116, R121, R129: the record of an Emission List entry is built from its case as it stands; when its
transmission completes the entry leaves the list, or loses its renewed mark and stays. (An OFFER entry of a case that
holds no offer, and a SETTLEMENT entry of one that is not SETTLED: log entry 43.) -/
def Obligations.EmissionsAreBuiltAndComplete : Prop :=
  (∀ (e : EmitEntry) (x : CaseRecord) (s : State), s.named e.handle = some x →
    buildEmission e s =
      match e.kind with
      | .offer => .offer ⟨e.handle, x.card, x.offer, x.flags⟩
      | .settlement =>
        .settlement
          { handle := e.handle, card := x.card, operator := x.operator, tr := x.tr, replacement := x.replacement
            bindTime := x.bindTime, settleTime := x.settleTime, listVersion := x.listVersion, tally := x.tally
            excluded := x.excluded, forced := x.flags.forced, tallyFinal := x.flags.tallyFinal
            lateCreditCapped := x.flags.lateCreditCapped }) ∧
  (∀ (h : Handle) (k : EmitKind) (b : EmitBody) (held : Bool) (s : State), s.centre.tx = .emission h k b held →
    ∃ t, exec .emissionRecordCompletes s = .next t ∧
      ({ s with
          centre := { s.centre with
            tx := .idle
            counters := { s.centre.counters with inserted := min 4294967295 (s.centre.counters.inserted + 1) } }
          emissions :=
            if held = false then s.emissions
            else if (s.emission h k).any (·.renewed) then
              s.emissions.map (fun e => if e.handle = h ∧ e.kind = k then { e with renewed := false } else e)
            else s.emissions.eraseP (fun e => e.handle = h ∧ e.kind = k) } : State).ended t)

/-! ### Management commands (08_management_commands.md) -/

/-- R134, R145, R179: a CONTROL record whose complement is not the inverse of its code, or whose code is not in the
catalogue, is refused before all else, on either role, and ends a load session (one of code 23h with a wrong complement
too: log entry 29); a body too short to carry a complement fails the first check. A body whose length does not suit its
command is refused with BAD_FIELD, on a STANDBY too for the four commands that it executes. So are a SET POLICY whose
length is not that of the settings its presence field names, a PRODUCT DATA of no entry, of more than 8 or of another
length than its count gives, which keeps the load session and its pointer (R144), and a READ CASE of another selector
or length (R36). -/
def Obligations.CodesAndLengthsAreChecked : Prop :=
  (∀ (c : Control) (why : Reason) (s : State),
    s.control = some c → c.codeFault = some why → s.takesCommand = true →
    ∃ t, exec .controlCodeReject s = .next t ∧
      if s.isActive then s.taken.answered c (.reject why) t else s.takenStandby.relayed c (.reject why) t) ∧
  (∀ pair target code complement : Byte, ∀ rest : List Byte,
    (Control.ofBody [pair, target]).codeFault = some .codeMismatch ∧ (Control.ofBody [pair, target]).code = 0 ∧
    (Control.ofBody [pair, target, code]).codeFault = some .codeMismatch ∧
    (Control.ofBody [pair, target, code]).code = code ∧
    (Control.ofBody (pair :: target :: code :: complement :: rest)).code = code ∧
    (Control.ofBody (pair :: target :: code :: complement :: rest)).codeFault =
      if complement ≠ ~~~code then some .codeMismatch
      else if (∃ x ∈ catalogue, x.2.1 = code) then none
      else some .unknownCommand) ∧
  (∀ (i : Instr) (code : Byte) (n : Nat) (c : Control) (s : State),
    (i, code, n) ∈
      ([(.cancelCase, 0x02, 3), (.acceptCase, 0x03, 4), (.bindCase, 0x04, 13), (.forceProgress, 0x05, 3),
        (.closeCase, 0x06, 3), (.admitFeed, 0x10, 5), (.retireFeed, 0x11, 1), (.readFeed, 0x12, 1),
        (.readPolicy, 0x21, 0), (.beginProductLoad, 0x22, 4), (.readProduct, 0x24, 2), (.setMode, 0x38, 1),
        (.readStatus, 0x39, 0), (.engineReset, 0x3A, 0), (.exportCases, 0x40, 6), (.resyncPartner, 0x41, 0)] :
        List (Instr × Byte × Nat)) →
    s.inHand code c → (code = 0x40 ∨ code = 0x41 → s.cu.busy = none) →
    (∀ bs, c.params = some bs → bs.length ≠ n) →
    ∃ t, exec i s = .next t ∧ s.taken.answered c (.reject .badField) t) ∧
  (∀ (i : Instr) (code : Byte) (c : Control) (s : State),
    (i, code) ∈
      ([(.readStatus, 0x39), (.engineReset, 0x3A), (.takeover, 0x42), (.forcedTakeover, 0x43)] : List (Instr × Byte)) →
    s.standbyInHand code c → (code = 0x42 ∨ code = 0x43 → s.cu.busy = none) → c.params ≠ some [] →
    ∃ t, exec i s = .next t ∧ s.takenStandby.relayed c (.reject .badField) t) ∧
  (∀ (c : Control) (s : State), s.inHand 0x20 c →
    (∀ bs, c.params = some bs →
      bs.length < 2 ∨
        bs.length ≠ 2 + (([3, 3, 3, 2, 3, 1, 1, 2, 1] : List Nat).mapIdx
          (fun i size => if (fieldAt 0 2 bs).testBit i then size else 0)).sum) →
    ∃ t, exec .setPolicy s = .next t ∧ s.taken.answered c (.reject .badField) t) ∧
  (∀ (c : Control) (s : State), s.inHand 0x23 c →
    (∀ bs, c.params = some bs →
      fieldAt 0 1 bs = 0 ∨ 8 < fieldAt 0 1 bs ∨ bs.length ≠ 1 + 10 * fieldAt 0 1 bs) →
    ∃ t, exec .productData s = .next t ∧ State.answered { s.taken with cu := s.cu } c (.reject .badField) t) ∧
  (∀ (c : Control) (s : State), s.inHand 0x07 c →
    (∀ bs, c.params = some bs → ¬(bs.length = 4 ∧ bs.head? = some 0) ∧ ¬(bs.length = 7 ∧ bs.head? = some 1)) →
    ∃ t, exec .readCase s = .next t ∧ s.taken.answered c (.reject .badField) t)

/-- R134, R139, R142, R145: the common conditions after the code checks. A target that is none of the three, a role
that does not execute the command, and a busy command while another is in progress are refused, in this order; each
refusal but that of PRODUCT DATA ends a load session. -/
def Obligations.CommonConditionsInOrder : Prop :=
  ∀ (i : Instr) (code : Byte) (adm : Admission) (busy : Bool) (c : Control) (s : State),
    (i, code, adm, busy) ∈ catalogue → s.control = some c → c.codeFault = none → c.code = code →
    s.takesCommand = true →
    let refused (why : Reason) : Prop :=
      ∃ t, exec i s = .next t ∧
        if s.isActive then
          ({ s.taken with cu := if code = 0x23 then s.cu else s.taken.cu } : State).answered c (.reject why) t
        else
          ({ s.takenStandby with cu := if code = 0x23 then s.cu else s.takenStandby.cu } : State).relayed c
            (.reject why) t
    (3 ≤ c.target → refused .badField) ∧
    (c.target ≤ 2 → adm = .activeOnly → s.isActive = false → refused .notActive) ∧
    (c.target ≤ 2 → adm = .standbyOnly → s.isActive = true → refused .notStandby) ∧
    (c.target ≤ 2 → busy = true → s.cu.busy.isSome = true →
      (if s.isActive then adm = .activeOnly else adm = .standbyOnly) → refused .busy)

/-- R14, R145, R149: SET MODE sets the mode; READ STATUS reads the engine's state on either role, the load session
as it stood before the command ended it, and on a STANDBY with line counters of 0 (log entry 28). -/
def Obligations.ModeAndStatus : Prop :=
  (∀ (c : Control) (code : Byte) (s : State), s.inHand 0x38 c → c.params = some [code] →
    ∃ t, exec .setMode s = .next t ∧
      if code = 1 then State.answered { s.taken with mode := .attributing } c (.reply (.mode .attributing)) t
      else if code = 2 then State.answered { s.taken with mode := .bypass } c (.reply (.mode .bypass)) t
      else s.taken.answered c (.reject .badField) t) ∧
  (∀ (c : Control) (s : State), c.params = some [] →
    let status (e : State) (station centre : LineCounters) : Verdict :=
      .reply (.status
        { vendor := 3214, part := 420, revision := 1, straps := s.mirror.straps, role := s.mirror.role
          currency := s.mirror.currency, pairLinkUp := s.mirror.linkUp, mode := s.mode
          busy := s.cu.busy.map (fun b => (b.work.code, b.tag)), session := s.cu.session
          walkRunning := s.walk.isSome, resetCause := s.resetCause, clock := s.clock, horizon := s.horizon
          activeFeeds := s.activeFeeds.length, injector := s.injector, liveCases := s.liveCases
          liveSpill := s.liveSpill, stationBuffer := s.station.rx.length, centreBuffer := e.centre.rx.length
          upQueue := s.upQueue.length, downQueue := s.downQueue.length, insertQueue := s.insertQueue.length
          mirrorQueue := s.mirror.queue.length, listQueue := s.listQueue.length
          emissions := s.emissions.length, stationUp := s.station.linkUp, centreUp := s.centre.linkUp
          stationCounters := station, centreCounters := centre })
    (s.inHand 0x39 c →
      ∃ t, exec .readStatus s = .next t ∧
        s.taken.answered c (status s.taken s.station.counters s.taken.centre.counters) t) ∧
    (s.standbyInHand 0x39 c →
      ∃ t, exec .readStatus s = .next t ∧ s.takenStandby.relayed c (status s.takenStandby {} {}) t))

/-- R6, R11, R13, R15 to R17, R37, R75, R90, R141, R150, R151, R160, R167, R176: ENGINE RESET takes a COMMAND reset
and answers the cause and the live case count. The tables are kept, but for what the cut of a delta does; the path,
the Command Unit, the counts and the mode restart; and an ACTIVE engine begins a walk. Its emptied Mirror Queue, or
its copy, makes the view STALE. (The stages of a claim: log entry 14; "in transmission": log entry 17, and
that it is cut: log entry 48; the messages that wait: log entry 22; a copy that a STANDBY takes goes on: log entry 40;
and the model's choice that a port forgets what its last credit frame carried, so that an ACTIVE engine begins a credit
frame in this event: log entry 32.) -/
def Obligations.EngineResetKeepsTables : Prop :=
  ∀ (c : Control) (s : State),
    (s.inHand 0x3A c ∨ s.standbyInHand 0x3A c) → c.params = some [] →
    let stops : Bool :=
      s.mirror.straps.pair && s.isActive &&
        (!s.mirror.queue.isEmpty || s.mirror.tx.isSome || s.mirror.copy.isSome)
    ∃ (ns : Notices) (t : State),
      ns.pointer = .tableFullSeen ∧
      (∀ k : NoticeClass, SMap.getD ns.entries {} k.code =
        if stops = true ∧ k = .mirrorStale then
          { count := 1, subject := some (.line .pair), masked := (s.noticeAt k).masked }
        else { count := 0, subject := none, masked := (s.noticeAt k).masked }) ∧
      exec .engineReset s = .next t ∧
      let e : State :=
        { s.deltaCut with
          station := {}, centre := {}, upQueue := [], downQueue := [], insertQueue := [], upPointer := .emission
          deltaCount := 0, mode := .attributing, cu := {}, notices := ns, resetCause := .command
          walk := if s.isActive then some ⟨0, false⟩ else none
          mirror := { s.mirror with
            stage := if s.mirror.stage = .pulsing ∨ s.mirror.stage = .waiting .forced then .settled
                     else s.mirror.stage
            currency := if stops then .stale else s.mirror.currency
            queue := [], tx := none, stopDue := s.mirror.stopDue || (stops && s.mirror.linkUp)
            yieldDue := false, presenceDue := false, relayList := [], relayHold := [], forceOut := false
            drain := none, copy := none, writes := [] } }
      let v : Verdict := .reply (.wasReset .command s.deltaCut.liveCases)
      if s.isActive then e.answered c v t else e.relayed c v t

/-- R15, R36, R138, R140, R146 to R148: EXPORT CASES is accepted with a filter of phases and a window of slots, and
visits one slot at a time once its REPLY has been placed. A case in its filter is reported in a SUMMARY as it stands
and counted, when the Insert Queue has a place that no writer ahead of the export waits for; a slot with no such case
is passed. After the last slot of the window the work ends in SUCCESS with the count. -/
def Obligations.ExportReportsItsWindow : Prop :=
  (∀ (c : Control) (bs : List Byte) (s : State),
    s.inHand 0x40 c → s.cu.busy = none → c.params = some bs → bs.length = 6 →
    ∃ t, exec .exportCases s = .next t ∧
      let filter := fieldAt 0 2 bs
      let a := fieldAt 2 2 bs
      let b := fieldAt 4 2 bs
      if filter ≠ 0 ∧ filter % 2 = 0 ∧ filter < 512 ∧ a ≤ 2111 ∧ b ≤ 2111 then
        let size := if a ≤ b then b - a + 1 else 2112 - a + b + 1
        let v : Verdict := .reply (.exporting (BitVec.ofNat 16 filter) a b size)
        let work := BusyWork.exportCases (BitVec.ofNat 16 filter) a size 0
        t.tables = s.tables ∧ t.road = s.road ∧ t.holdsAnswer (s.response c v) ∧
        (s.calm = true → s.cu.waiting = [] → s.insertQueue.length < 64 →
          t = ({ s.taken with
                  cu := ⟨[], some ⟨work, c.tag, true, false⟩, none⟩
                  insertQueue := s.insertQueue ++ [.answer (s.response c v)] } : State).begun) ∧
        (s.calm = true → s.cu.waiting = [] → 64 ≤ s.insertQueue.length →
          t = ({ s.taken with cu := ⟨[s.response c v], some ⟨work, c.tag, false, false⟩, none⟩ } : State).begun)
      else s.taken.answered c (.reject .badField) t) ∧
  (∀ (phases : BitVec 16) (n remaining count : Nat) (b : Busy) (s : State),
    s.isActive = true → s.cu.busy = some b → b.work = .exportCases phases n remaining count → b.begun = true →
    b.ended = false →
    let found := (s.caseAt n).filter (fun x => phases.getLsbD x.phase.code)
    let count' := if found.isSome then count + 1 else count
    let placed : State :=
      { s with
        insertQueue := s.insertQueue ++
          (found.toList.map (fun x => .answer (.summary (summaryOf (s.handleAt n) x s)))) }
    let completion : Answer := .completion ⟨b.tag, 0x40, s.mirror.straps.member, true, count', none⟩
    (found.isSome = true → (64 ≤ s.insertQueue.length ∨ s.cu.waiting ≠ [] ∨ s.mirror.relayHold ≠ []) →
      exec .exportVisit s = .next s) ∧
    ((found.isSome = true → s.insertQueue.length < 64 ∧ s.cu.waiting = [] ∧ s.mirror.relayHold = []) →
      ∃ t, exec .exportVisit s = .next t ∧
        if 1 < remaining then
          ({ placed with
              cu := { s.cu with
                busy := some
                  { b with work := .exportCases phases ((n + 1) % 2112) (remaining - 1) count' } } } :
            State).ended t
        else
          t.tables = s.tables ∧ t.road = s.road ∧ t.holdsAnswer completion ∧
          (s.calm = true → s.cu.waiting = [] → placed.insertQueue.length < 64 →
            t = ({ placed with
                    cu := { s.cu with busy := none }
                    insertQueue := placed.insertQueue ++ [.answer completion] } : State).begun)))

/-- R138, R168, R171, R174: the pair commands accepted, and how their work begins when the REPLY has its place at
once. RESYNC PARTNER makes the view STALE and places COPY BEGIN; TAKEOVER makes a YIELD REQUEST due; FORCED TAKEOVER
begins its Force pulse. The conditions of each are checked in its order. (A pulse that begins during a start-up delay,
a claim or a wait: log entries 15 and 31.) -/
def Obligations.PairCommandsBegin : Prop :=
  (∀ (c : Control) (s : State), s.inHand 0x41 c → s.cu.busy = none → c.params = some [] →
    ∃ t, exec .resyncPartner s = .next t ∧
      if s.mirror.straps.pair = true ∧ s.mirror.linkUp = true then
        t.tables = s.tables ∧ t.holdsAnswer (s.response c (.reply .begun)) ∧
        (s.mirror.writes = [] → s.cu.waiting = [] → s.insertQueue.length < 64 → s.mirror.queue.length < 128 →
          t = ({ s.taken with
                  cu := ⟨[], some ⟨.resync, c.tag, true, false⟩, none⟩
                  insertQueue := s.insertQueue ++ [.answer (s.response c (.reply .begun))]
                  mirror := { s.mirror with
                    queue := s.mirror.queue ++ [.write ⟨s.mirror.next, true, true, .copyBegin⟩]
                    next := s.mirror.next + 1
                    currency := .stale
                    copy := some ⟨true, 0, false⟩ } } : State).begun)
      else s.taken.answered c (.reject .noPartner) t) ∧
  (∀ (c : Control) (s : State), s.standbyInHand 0x42 c → s.cu.busy = none → c.params = some [] →
    ∃ t, exec .takeover s = .next t ∧
      if s.mirror.linkUp = false then s.takenStandby.relayed c (.reject .noPartner) t
      else if s.mirror.currency = .stale then s.takenStandby.relayed c (.reject .staleStandby) t
      else
        t.tables = s.tables ∧
        (s.mirror.writes = [] → s.cu.waiting = [] → s.mirror.relayList.length < 8 →
          t = ({ s.takenStandby with
                  cu := ⟨[], some ⟨.takeover false, c.tag, true, false⟩, none⟩
                  mirror := { s.mirror with
                    relayList := s.mirror.relayList ++ [s.response c (.reply .begun)]
                    yieldDue := true } } : State).begun)) ∧
  (∀ (c : Control) (s : State), s.standbyInHand 0x43 c → s.cu.busy = none → c.params = some [] →
    ∃ t, exec .forcedTakeover s = .next t ∧ t.tables = s.tables ∧
      (s.mirror.writes = [] → s.cu.waiting = [] → (s.mirror.linkUp = true → s.mirror.relayList.length < 8) →
        t = ({ s.takenStandby with
                cu := ⟨[], some ⟨.forcedTakeover s.mirror.currency, c.tag, true, false⟩, none⟩
                mirror := { s.mirror with
                  relayList :=
                    if s.mirror.linkUp then s.mirror.relayList ++ [s.response c (.reply .begun)]
                    else s.mirror.relayList
                  group := [], forceOut := true, stage := .pulsing, holdOut := false } } : State).begun))

/-- R15, R136, R138, R140, R170: the Command Unit's oldest record takes a place of the Insert Queue. With its
COMPLETION a busy command is at an end; with the REPLY of an export the visits begin. With that of a RESYNC PARTNER
(R168) COPY BEGIN is placed and the view is STALE, or waits for a place (log entry 20); with the Pair Link DOWN the work
ends in FAILURE with LINK_DOWN, its COMPLETION waiting for a place of its own (log entry 13). A relay that waits takes
a place when the Command Unit waits for none. -/
def Obligations.PlacesAreTakenInOrder : Prop :=
  (∀ (a : Answer) (rest : List Answer) (s : State),
    s.isActive = true → s.insertQueue.length < 64 → s.cu.waiting = a :: rest →
    let e : State := { s with cu := { s.cu with waiting := rest }, insertQueue := s.insertQueue ++ [.answer a] }
    ∃ t, exec .placeCommandRecord s = .next t ∧
      match a, s.cu.busy with
      | .summary _, _ => e.ended t
      | .completion _, _ => ({ e with cu := ⟨rest, none, s.cu.session⟩ } : State).ended t
      | .response _, none => e.ended t
      | .response _, some b =>
        (b.begun || b.ended) = true → e.ended t) ∧
  (∀ (a : Answer) (rest : List Answer) (b : Busy) (p : BitVec 16) (n remaining count : Nat) (s : State),
    s.isActive = true → s.insertQueue.length < 64 → s.cu.waiting = a :: rest → (∃ r, a = .response r) →
    s.cu.busy = some b → b.begun = false → b.ended = false → b.work = .exportCases p n remaining count →
    ∃ t, exec .placeCommandRecord s = .next t ∧
      ({ s with
          cu := ⟨rest, some { b with begun := true }, s.cu.session⟩
          insertQueue := s.insertQueue ++ [.answer a] } : State).ended t) ∧
  (∀ (a : Answer) (rest : List Answer) (b : Busy) (s : State),
    s.isActive = true → s.insertQueue.length < 64 → s.cu.waiting = a :: rest → (∃ r, a = .response r) →
    s.cu.busy = some b → b.begun = false → b.ended = false → b.work = .resync →
    let e : State :=
      { s with cu := ⟨rest, some { b with begun := true }, s.cu.session⟩, insertQueue := s.insertQueue ++ [.answer a] }
    (s.mirror.linkUp = true → s.mirror.writes = [] →
      exec .placeCommandRecord s =
        .next (State.begun
          (if s.mirror.queue.length < 128 then
            { e with
              mirror := { s.mirror with
                queue := s.mirror.queue ++ [.write ⟨s.mirror.next, true, true, .copyBegin⟩]
                next := s.mirror.next + 1
                currency := .stale
                copy := some ⟨true, 0, false⟩ } }
           else { e with mirror := { s.mirror with copy := some ⟨false, 0, false⟩ } }))) ∧
    (s.mirror.linkUp = false →
      ∃ t, exec .placeCommandRecord s = .next t ∧
        ({ e with
            cu :=
              ⟨rest ++ [.completion ⟨b.tag, 0x41, s.mirror.straps.member, false, 0, some .linkDown⟩],
                some { b with begun := true, ended := true }, s.cu.session⟩
            notices := s.notices.counted .busyDoneFail (.tag b.tag) } : State).ended t)) ∧
  (∀ (a : Answer) (rest : List Answer) (s : State),
    s.isActive = true → s.insertQueue.length < 64 → s.cu.waiting = [] → s.mirror.relayHold = a :: rest →
    ∃ t, exec .placeRelay s = .next t ∧
      ({ s with
          insertQueue := s.insertQueue ++ [.answer a]
          mirror := { s.mirror with relayHold := rest } } : State).ended t)

/-! ### Notices (09_notices_and_fault_counting.md) -/

/-- R15, R152, R155 to R158: SET NOTICE MASK writes all sixteen masks and changes no count. CLEAR NOTICES reads and
clears the count and subject of each class listed and changes no mask. (A class listed twice: log entry 27.) With no
other writer waiting and no drain, the first UNMASKED class with a count above 0 in the cyclic order after the last one
emitted is placed as a NOTICE, and its count and subject are cleared; a NOTICE takes no place from the Command Unit,
the relay or the export, nor in a drain. (Its subject is the one stored as it was counted: log entry 47.) -/
def Obligations.NoticesAreMaskedClearedAndEmitted : Prop :=
  (∀ (c : Control) (ms : List Bool) (s : State), s.inHand 0x30 c → readMasks c.params = some ms →
    ∃ (ns : Notices) (t : State),
      ms.length = 16 ∧ ns.pointer = s.notices.pointer ∧
      (∀ k : NoticeClass, SMap.getD ns.entries {} k.code =
        { s.noticeAt k with masked := (ms[k.code - 1]?).getD false }) ∧
      exec .setNoticeMask s = .next t ∧
      State.answered { s.taken with notices := ns } c (.reply (.masks ms)) t) ∧
  (∀ (c : Control) (s : State), s.inHand 0x30 c → readMasks c.params = none →
    ∃ t, exec .setNoticeMask s = .next t ∧ s.taken.answered c (.reject .badField) t) ∧
  (∀ (c : Control) (cs : List NoticeClass) (s : State), s.inHand 0x31 c → readClasses c.params = some cs →
    ∃ (ns : Notices) (t : State),
      ns.pointer = s.notices.pointer ∧
      (∀ k : NoticeClass, SMap.getD ns.entries {} k.code =
        if k ∈ cs then { count := 0, subject := none, masked := (s.noticeAt k).masked } else s.noticeAt k) ∧
      exec .clearNotices s = .next t ∧
      State.answered { s.taken with notices := ns } c
        (.reply (.cleared (cs.map (fun k => (k, (s.noticeAt k).count, (s.noticeAt k).subject))))) t) ∧
  (∀ (c : Control) (s : State), s.inHand 0x31 c → readClasses c.params = none →
    ∃ t, exec .clearNotices s = .next t ∧ s.taken.answered c (.reject .badField) t) ∧
  (∀ (k : NoticeClass) (before after : List NoticeClass) (s : State),
    s.isActive = true → s.mirror.drain = none → s.insertQueue.length < 64 → s.cu.waiting = [] →
    s.mirror.relayHold = [] → s.exportWaits = false →
    noticeClasses.drop s.notices.pointer.code ++ noticeClasses.take s.notices.pointer.code = before ++ k :: after →
    (∀ x ∈ before, (s.noticeAt x).masked = true ∨ (s.noticeAt x).count = 0) →
    (s.noticeAt k).masked = false → 0 < (s.noticeAt k).count →
    ∃ t, exec .placeNotice s = .next t ∧
      let e := s.noticeAt k
      ({ s with
          insertQueue := s.insertQueue ++ [.notice ⟨k, e.count, e.subject, s.mirror.straps.member⟩]
          notices :=
            ⟨SMap.setD s.notices.entries {} k.code { count := 0, subject := none, masked := e.masked }, k⟩ } :
        State).ended t) ∧
  (∀ s : State,
    (s.isActive = false ∨ s.mirror.drain.isSome = true ∨ 64 ≤ s.insertQueue.length ∨ s.cu.waiting ≠ [] ∨
      s.mirror.relayHold ≠ [] ∨ s.exportWaits = true) →
    exec .placeNotice s = .next s)

/-! ### Paired engines (10_paired_engines.md) -/

/-- R6, R13, R16, R17, R37, R63, R66, R71, R85, R98, R101, R154, R160, R162, R163, R176: a POWER-ON or PIN reset
leaves every item at its reset value and the straps as read. Without the PAIR strap the engine is ACTIVE at once: it
asserts Hold, has counted ROLE_CHANGE, has begun a walk, and each port sends its first credit frame. With it, the
start-up delay runs. (The straps of State.reset: log entry 3; the model's choices that the due flags are clear and that
a port forgets what its last credit frame carried: log entries 4 and 32.) -/
def Obligations.ResetsStartTheEngine : Prop :=
  (∀ (straps : Straps) (s : State),
    let started (cause : ResetCause) : State :=
      if straps.pair then
        { pending := s.pending, draws := s.draws, resetCause := cause, mirror := { straps := straps, stage := .delay } }
      else
        { pending := s.pending, draws := s.draws, resetCause := cause
          station := { tx := .credit 16 0 true, lastCredit := some (16, true) }
          centre := { tx := .credit 16 0 true, lastCredit := some (16, true) }
          walk := some ⟨0, false⟩
          notices := { entries := [(NoticeClass.roleChange.code, { count := 1, subject := some (.line .hold) })] }
          mirror := { straps := straps, role := .active, holdOut := true } }
    exec (.powerOnReset straps) s = .next (started .powerOn) ∧ exec (.pinReset straps) s = .next (started .pin)) ∧
  exec (.powerOnReset resetStraps) State.reset = .next State.reset ∧
  (let r := State.reset
   r.mode = .attributing ∧ r.upPointer = .emission ∧ r.deltaCount = 0 ∧ r.clock = ⟨0, false⟩ ∧
     r.horizon = ⟨0, 0⟩ ∧ r.injector = ⟨none, 0⟩ ∧ r.mirror.currency = .stale ∧ r.mirror.linkUp = false ∧
     r.policy = ⟨50000, 500, 500, 10, 10800, 10, 3, 120, 0b01100#5⟩ ∧
     (∀ n, r.slotAt n = ⟨0, none⟩) ∧ (∀ n, r.feedAt n = ⟨false, 0, [], 0, 0, 0, 0, 0⟩) ∧
     (∀ n, r.productAt n = ⟨.none, .drop, 0, 0, 0⟩))

/-- R163, R173 to R175, R180: the stages on the Hold and Force lines. The delay ends in a claim or in the role of a
STANDBY; a wait ends in a claim; a pulse ends in a wait; a withdrawal, or a Hold that stays asserted, leaves a STANDBY
with nothing under way, and ends the takeover it belonged to in FAILURE; one that was forced and loses its claim while
CURRENT is STALE from then on and sends a MIRROR STOP (R174); after a HANDOVER the currency stays as it is then (log
entry 45). A pulse of any length but 40 to 60 µs is counted. -/
def Obligations.HoldAndForceStages : Prop :=
  (∀ (partnerHold : Bool) (s : State), s.mirror.stage = .delay →
    ∃ t, exec (.startupDelayEnd partnerHold) s = .next t ∧
      if partnerHold then
        ({ s with mirror := { s.mirror with stage := .settled, currency := .stale } } : State).ended t
      else ({ s with mirror := { s.mirror with holdOut := true, stage := .claiming .startup } } : State).ended t) ∧
  (∀ (cause : ClaimCause) (s : State), s.mirror.stage = .waiting cause →
    ∃ t, exec .partnerHoldReleased s = .next t ∧
      ({ s with mirror := { s.mirror with holdOut := true, stage := .claiming cause } } : State).ended t) ∧
  (∀ s : State, s.mirror.stage = .pulsing →
    ∃ t, exec .forcePulseEnd s = .next t ∧
      ({ s with mirror := { s.mirror with forceOut := false, stage := .waiting .forced } } : State).ended t) ∧
  (∀ (cause : ClaimCause) (s : State),
    s.isActive = false → s.mirror.writes = [] → s.cu.waiting = [] → s.endsBusy cause = false →
    (s.mirror.stage = .waiting cause →
      exec .holdStuckTimeout s =
        .next (State.begun { s with mirror := { s.mirror with stage := .settled } })) ∧
    (s.mirror.stage = .claiming cause →
      let e : State := { s with mirror := { s.mirror with stage := .settled, holdOut := false } }
      exec .holdAssertedDuringClaim s =
        match cause, s.mirror.currency with
        | .startup, _ => .next (State.begun { e with mirror := { e.mirror with currency := .stale } })
        | .handover _, _ => .next e.begun
        | .forced, .stale => .next e.begun
        | .forced, .current =>
          .next (State.begun
            { e with
              notices := s.notices.counted .mirrorStale (.line .pair)
              mirror := { e.mirror with currency := .stale, group := [], stopDue := true } }))) ∧
  (∀ (cause : ClaimCause) (b : Busy) (s : State),
    s.isActive = false → s.mirror.writes = [] → s.cu.waiting = [] → s.cu.busy = some b → b.ended = false →
    (match cause, b.work with
     | .handover _, .takeover _ => True
     | .forced, .forcedTakeover _ => True
     | _, _ => False) →
    (s.mirror.stage = .waiting cause →
      exec .holdStuckTimeout s =
        .next (State.begun (State.takeoverFailed b .holdStuck
          { s with mirror := { s.mirror with stage := .settled } }))) ∧
    (s.mirror.stage = .claiming cause →
      let e : State := { s with mirror := { s.mirror with stage := .settled, holdOut := false } }
      exec .holdAssertedDuringClaim s =
        .next (State.begun (State.takeoverFailed b .claimLost
          (if cause = .forced ∧ s.mirror.currency = .current then
            { e with
              notices := s.notices.counted .mirrorStale (.line .pair)
              mirror := { e.mirror with currency := .stale, group := [], stopDue := true } }
           else e))))) ∧
  (∀ (n : Nat) (s : State), s.mirror.straps.pair = true → (n < 40 ∨ 60 < n) →
    ∃ t, exec (.forcePulseReleased n false) s = .next t ∧
      ({ s with notices := s.notices.counted .forceGlitch (.line .force) } : State).ended t)

/-- R6, R18, R75, R94, R135, R154, R163, R170, R173, R174: an engine whose claim runs its course becomes ACTIVE. Its
ports restart with the frames they keep; no case has a removal version, and a cancelled ADD at the head of the List
Queue is a REMOVE; a walk begins; the answers of its relay list wait as relays; its view is the currency it held at
the handover after a HANDOVER (R167, R173) and STALE otherwise, mirror numbers start at 0, and the pending group is
discarded; a view that is STALE after a HANDOVER sends a MIRROR STOP; and a takeover of this engine ends in SUCCESS (one
that has not begun: log entry 35); ROLE_CHANGE is counted on top of any count held (log entry 44).
With a CURRENT view the changes it makes to its tables are mirrored, behind what its Mirror Queue still holds (log
entry 38), or overflow it. -/
def Obligations.ClaimMakesActive : Prop :=
  ∀ (cause : ClaimCause) (s : State),
    s.isActive = false → s.mirror.stage = .claiming cause → SMap.sorted s.slots →
    ∃ t, exec .claimComplete s = .next t ∧
      let port (p : Port) : Port :=
        { p with first := true, ns := 0, lh := none, heldGrant := none, counters := { good := p.rx.length } }
      t.isActive = true ∧ t.mirror.stage = .settled ∧ t.mirror.holdOut = s.mirror.holdOut ∧
      t.station = (port s.station).startCredit true ∧ t.centre = (port s.centre).startCredit true ∧
      t.upQueue = s.upQueue ∧ t.downQueue = s.downQueue ∧ t.cu.session = none ∧
      t.walk = (match s.walk with
        | none => some ⟨0, false⟩
        | some w => some ⟨w.position, true⟩) ∧
      (∀ n, t.slotAt n =
        { use := (s.slotAt n).use, case := (s.caseAt n).map (fun c => { c with removalVersion := none }) }) ∧
      t.listQueue =
        (match s.listQueue with
         | e :: _ =>
           if e.kind = .add ∧ e.cancelled = true then
             s.listQueue.map (fun x => if x.handle = e.handle then ⟨e.handle, .remove, false⟩ else x)
           else s.listQueue
         | [] => []) ∧
      t.emissions = s.emissions ∧ t.feeds = s.feeds ∧ t.horizon = s.horizon ∧ t.injector = s.injector ∧
      t.clock = s.clock ∧ t.products = s.products ∧ t.policy = s.policy ∧ t.spill = s.spill ∧
      (∀ b, s.cu.busy = some b → b.ended = false →
        ∀ d : Detail,
          (match b.work with
           | .takeover _ => d = (match cause with
             | .handover held => held.detail
             | .startup | .forced => .stale)
           | .forcedTakeover noted => d = noted.detail
           | _ => False) →
          t.holdsAnswer (.completion ⟨b.tag, b.work.code, s.mirror.straps.member, true, 0, some d⟩)) ∧
      (cause = .handover .stale → t.mirror.stopDue = true ∨ t.mirror.tx = some .stop) ∧
      (s.mirror.writes = [] → cause ≠ .handover .current → s.mirror.copy = none →
        s.cu.busy.all (fun b => b.begun || b.ended) = true →
        t.mirror.currency = .stale ∧ t.mirror.next = 0 ∧ t.mirror.group = [] ∧ t.mirror.relayList = [] ∧
        t.mirror.relayHold = s.mirror.relayHold ++ s.mirror.relayList ∧
        (s.cu.busy = none → t.notices = s.notices.counted .roleChange (.line .hold))) ∧
      (s.mirror.straps.pair = true → s.mirror.writes = [] → cause = .handover .current → (∀ e ∈ s.slots, e.1 < 2112) →
        s.cu.busy.all (fun b => b.begun || b.ended) = true →
        let ws : List TableWrite :=
          ((s.listQueue.take 1).filter (fun e => decide (e.kind = .add ∧ e.cancelled = true))).map
              (fun e => .listOp (.replace ⟨e.handle, .remove, false⟩)) ++
            s.slots.filterMap (fun e =>
              (e.2.case.filter (fun c => c.removalVersion.isSome)).map
                (fun c => .slot e.1 { e.2 with case := some { c with removalVersion := none } })) ++
            s.noticeWrite .roleChange (.line .hold)
        let ps := ws.flatMap TableWrite.payloads
        t.mirror.group = [] ∧ t.mirror.relayList = [] ∧
        t.mirror.relayHold = s.mirror.relayHold ++ s.mirror.relayList ∧
        (s.mirror.queue.length + ps.length ≤ 128 →
          t.mirror.currency = .current ∧ t.mirror.next = BitVec.ofNat 16 ps.length ∧
          t.mirror.queue = s.mirror.queue ++ numbered 0 false ps ∧
          t.notices = s.notices.counted .roleChange (.line .hold)) ∧
        (s.mirror.queue.length ≤ 128 → 128 < s.mirror.queue.length + ps.length → t.mirror.currency = .stale))

/-- R6, R141, R154, R172: a YIELD REQUEST while the view is CURRENT begins a drain, in which both ports withhold; a
drain that is complete, or whose second has passed with the Mirror Queue empty, hands over: the engine places a
HANDOVER with its next mirror number, drops Hold, empties its path, and is a CURRENT STANDBY. (What the transmitters
were sending after a second that has passed is cut, and a cut delta writes nothing: log entry 19.) -/
def Obligations.DrainHandsOver : Prop :=
  (∀ s : State, s.mirror.straps.pair = true → s.isActive = true →
    let heard : State := { s with mirror := { s.mirror with linkUp := true, silence := 0 } }
    ∃ t, exec (.yieldRequest true) s = .next t ∧
      if s.mirror.currency = .current ∧ s.mirror.drain = none then
        (∀ b, s.cu.busy = some b → b.ended = false → ∀ p n r count, b.work = .exportCases p n r count →
          t.mirror.drain = some false ∧
          t.holdsAnswer (.completion ⟨b.tag, 0x40, s.mirror.straps.member, false, count, none⟩)) ∧
        (s.cu.busy = none →
          ({ heard with
              station := { s.station with heldGrant := some s.station.lg }
              centre := { s.centre with heldGrant := some s.centre.lg }
              mirror := { heard.mirror with drain := some false } } : State).ended t)
      else heard.ended t) ∧
  (∀ (expired : Bool) (s : State),
    s.isActive = true → s.mirror.drain = some expired → s.mirror.queue = [] →
    let idle (p : Port) : Port := { p with rx := [], heldGrant := none, tx := .idle, creditDue := false }
    let after : State :=
      { s with
        station := idle s.station, centre := idle s.centre, upQueue := [], downQueue := [], insertQueue := []
        walk := none, cu := {}
        notices := s.notices.counted .roleChange (.line .hold)
        mirror := { s.mirror with
          role := .standby, stage := .settled, currency := .current, queue := [.handover s.mirror.next]
          expected := 0, group := [], copyRx := .idle, relayHold := [], holdOut := false, drain := none
          copy := none, writes := [] } }
    let complete :=
      s.station.heldGrant = some s.station.nr ∧ s.centre.heldGrant = some s.centre.nr ∧ s.upQueue = [] ∧
        s.downQueue = [] ∧ s.insertQueue = [] ∧ s.mirror.relayHold = [] ∧ s.station.tx = .idle ∧
        s.centre.tx = .idle ∧ s.station.rx = [] ∧ (s.centre.rx = [] ∨ s.control.isSome = true)
    ((expired = true ∨ complete) → exec .drainComplete s = .next after.begun) ∧
    (¬(expired = true ∨ complete) → exec .drainComplete s = .next s) ∧
    (expired = false → exec .drainTimeout s = .next after.begun)) ∧
  (∀ s : State, s.isActive = true → s.mirror.drain = some false → s.mirror.queue ≠ [] →
    exec .drainComplete s = .next s ∧
    ∃ t, exec .drainTimeout s = .next t ∧
      ({ s with mirror := { s.mirror with drain := some true } } : State).ended t)

/-- R6, R37, R97, R141, R154, R160, R175, R176: a Force pulse of 40 to 60 µs gives a FORCED reset. The tables are kept,
but for what the cut of a delta does; the engine is a STALE STANDBY with Hold dropped; its path, Command Unit, walk,
mode and counts restart, and an engine that was ACTIVE counts ROLE_CHANGE after that. (The messages that wait outside
the queues: log entry 22; a copy that a STANDBY takes goes on: log entry 40; a start-up delay, or a wait after a
HANDOVER, ends: log entry 53; and the model's choice that a port forgets
what its last credit frame carried: log entry 32.) -/
def Obligations.ForcePulseResets : Prop :=
  ∀ (n : Nat) (s : State), s.mirror.straps.pair = true → 40 ≤ n → n ≤ 60 →
    ∃ ns : Notices,
      ns.pointer = .tableFullSeen ∧
      (∀ k : NoticeClass, SMap.getD ns.entries {} k.code =
        if s.isActive = true ∧ k = .roleChange then
          { count := 1, subject := some (.line .hold), masked := (s.noticeAt k).masked }
        else { count := 0, subject := none, masked := (s.noticeAt k).masked }) ∧
      exec (.forcePulseReleased n false) s = .next (State.begun
        { s.deltaCut with
          station := {}, centre := {}, upQueue := [], downQueue := [], insertQueue := [], upPointer := .emission
          deltaCount := 0, mode := .attributing, walk := none, cu := {}, notices := ns, resetCause := .forced
          mirror := { s.mirror with
            role := .standby, stage := .settled, currency := .stale, queue := [], group := []
            tx := none, yieldDue := false, presenceDue := false, relayList := [], relayHold := []
            holdOut := false, forceOut := false, drain := none, copy := none, writes := [] } })

/-- R164, R166, R167, R169 to R173: what the Pair Link's state and its messages do. A good message sets the link UP.
With the link DOWN a STANDBY is STALE (counted whatever it was: log entry 16), its relay list is lost (the relay in
transmission goes on: log entry 30) with every answer that waits for a place in it, as if each had been placed (log
entry 13), and a TAKEOVER in progress, whether or not its REPLY has been placed, ends in FAILURE; an ACTIVE engine whose view is CURRENT or whose copy runs stops mirroring, the copy ending in FAILURE, and a
drain ends; a MIRROR STOP stops it on either engine (log entry 16); a HANDOVER, or one taken as lost, sets the currency
and begins the wait for the partner's Hold, which keeps that currency (a stage under way, and a STALE standby: log entry
21); a relay joins the relay hold while 8 do not wait; and a wait for a HANDOVER that runs out ends in FAILURE.
(A HANDOVER that comes before the REPLY of a TAKEOVER has its place: log entry 51. What waits for the transmitter stays: log
entries 36 and 37; so does a copy that a STANDBY takes: log entry 40.) -/
def Obligations.PairLinkAndMessages : Prop :=
  (∀ s : State, s.mirror.straps.pair = true →
    let heard : State := { s with mirror := { s.mirror with linkUp := true, silence := 0 } }
    (∃ t, exec (.presence true) s = .next t ∧ heard.ended t) ∧
    (s.mirror.tx = none →
      ∃ t, exec .presenceDue s = .next t ∧
        ({ s with mirror := { s.mirror with presenceDue := true } } : State).ended t) ∧
    (∀ a, ∃ t, exec (.responseRelay true a) s = .next t ∧
      if s.isActive = true ∧ s.mirror.relayHold.length < 8 then
        ({ heard with mirror := { heard.mirror with relayHold := s.mirror.relayHold ++ [a] } } : State).ended t
      else heard.ended t) ∧
    (s.isActive = false → ∃ t, exec (.yieldRequest true) s = .next t ∧ heard.ended t) ∧
    (s.isActive = true →
      (∀ m, ∃ t, exec (.mirrorWrite true m) s = .next t ∧ heard.ended t) ∧
      (∀ n, ∃ t, exec (.handover true n) s = .next t ∧ heard.ended t) ∧
      (s.mirror.drain = none → s.mirror.copy = none →
        ∃ t, exec (.mirrorStop true) s = .next t ∧
          (s.mirror.writes = [] → s.cu.waiting = [] →
            t = State.begun
              { heard with
                notices := s.notices.counted .mirrorStale (.line .pair)
                mirror := { heard.mirror with
                  currency := .stale
                  queue := if s.mirror.sendingQueued then s.mirror.queue.take 1 else [] } })) ∧
      (s.mirror.writes = [] → s.cu.waiting = [] →
        let stopped := heard.drainEnded.mirroringStopped
        (s.mirror.copy = none → exec (.mirrorStop true) s = .next stopped.begun) ∧
        (∀ k b, s.mirror.copy = some k → s.cu.busy = some b → b.ended = false →
          exec (.mirrorStop true) s = .next (stopped.copyFailed b k.items .stop).begun))) ∧
    (s.isActive = false → s.mirror.writes = [] →
      let stale : State :=
        { heard with
          notices := s.notices.counted .mirrorStale (.line .pair)
          mirror := { heard.mirror with currency := .stale } }
      let waits (e : State) : State :=
        { e with
          mirror := { e.mirror with
            stage := match s.mirror.stage with
              | .settled | .waiting (.handover _) => .waiting (.handover e.mirror.currency)
              | .claiming (.handover _) => .claiming (.handover e.mirror.currency)
              | .delay => .delay
              | .pulsing => .pulsing
              | .waiting cause => .waiting cause
              | .claiming cause => .claiming cause }
          cu := { s.cu with busy := s.cu.busy.map (fun b => { b with work := b.work.handed }) } }
      exec (.mirrorStop true) s =
          .next (State.begun { stale with mirror := { stale.mirror with group := [] } }) ∧
      (∀ n, exec (.handover true n) s =
        .next (State.begun
          (if n = s.mirror.expected ∧ s.mirror.group = [] then
            waits { heard with mirror := { heard.mirror with currency := .current } }
           else waits stale))) ∧
      (s.awaitsHandover = true →
        exec .holdFallNoHandover s =
          .next (State.begun (waits
            { s with
              notices := s.notices.counted .mirrorStale (.line .pair)
              mirror := { s.mirror with currency := .stale } }))))) ∧
  (∀ s : State, s.mirror.straps.pair = true → s.mirror.linkUp = true → s.isActive = true →
    s.mirror.drain = none → s.mirror.currency = .stale → s.mirror.copy = none →
    ∃ t, exec .pairLinkDown s = .next t ∧
      ({ s with mirror := { s.mirror with linkUp := false, silence := 200 } } : State).ended t) ∧
  (∀ s : State, s.mirror.straps.pair = true → s.mirror.linkUp = true → s.isActive = true →
    let down : State := { s with mirror := { s.mirror with linkUp := false, silence := 200 } }
    (s.mirror.currency = .stale → s.mirror.copy = none →
      ∃ t, exec .pairLinkDown s = .next t ∧ down.drainEnded.ended t) ∧
    (s.mirror.writes = [] → s.cu.waiting = [] →
      let stopped := down.drainEnded.mirroringStopped
      (s.mirror.currency = .current → s.mirror.copy = none → exec .pairLinkDown s = .next stopped.begun) ∧
      (∀ k b, s.mirror.copy = some k → s.cu.busy = some b → b.ended = false →
        exec .pairLinkDown s = .next (stopped.copyFailed b k.items .linkDown).begun))) ∧
  (∀ s : State, s.mirror.straps.pair = true → s.mirror.linkUp = true → s.isActive = false → s.mirror.writes = [] →
    let down : State :=
      { s with
        notices := s.notices.counted .mirrorStale (.line .pair)
        mirror := { s.mirror with
          linkUp := false, silence := 200, currency := .stale, group := [], relayList := []
          tx := s.mirror.tx.map PairTx.detach } }
    (s.cu.waiting = [] → (∀ b, s.cu.busy = some b → b.ended = true ∨ b.work ≠ .takeover false) →
      exec .pairLinkDown s = .next down.begun) ∧
    ((∀ b, s.cu.busy = some b → b.ended = true ∨ (b.begun = true ∧ b.work ≠ .takeover false)) →
      exec .pairLinkDown s =
        .next (State.begun
          { down with
            cu := { s.cu with
              waiting := []
              busy := if s.cu.waiting.any (fun a => a matches .completion _) then none else s.cu.busy } })) ∧
    (∀ r b noted, s.cu.waiting = [.response r] → s.cu.busy = some b → b.ended = false → b.begun = false →
      b.work = .forcedTakeover noted →
      exec .pairLinkDown s =
        .next (State.begun
          { down with
            cu := { s.cu with waiting := [], busy := some { b with begun := true, work := .forcedTakeover .stale } }
            mirror := { down.mirror with forceOut := true, stage := .pulsing, holdOut := false } })) ∧
    (∀ b, s.cu.busy = some b → b.ended = false → b.work = .takeover false →
      exec .pairLinkDown s =
        .next (State.begun (State.takeoverFailed b .linkDown { down with cu := { s.cu with waiting := [] } })))) ∧
  (∀ (b : Busy) (s : State), s.isActive = false → s.mirror.writes = [] → s.cu.waiting = [] →
    s.cu.busy = some b → s.awaitsHandover = true →
    exec .takeoverTimeout s = .next (State.begun (s.takeoverFailed b .noHandover)))

/-- R164, R165, R168, R169: the writes of an event take the next mirror numbers as one group, its last message marked,
while the Mirror Queue has room; otherwise it overflows, and mirroring stops. A message that has been sent leaves its
queue, and on a STANDBY a relay its list, where the oldest answer that waits takes the place (log entry 13). The copy
places its steps in order, each when it has room, a COPY BEGIN that waited for one (log entry 20) among them, and ends
in SUCCESS when COPY END has been sent. On an engine that mirrors, the writes that an event makes to its tables reach
the Mirror Queue in the order in which it makes them, each with the item as it then stands (log entries 8 and 9): a
settlement, a TIME adoption, a SWEEP, an attributed record, a SET POLICY, a PRODUCT DATA, an OPEN CASE, an injected
REMOVE and a counted notice are given here. (How many messages a live case slot takes: log entry 5.) -/
def Obligations.GroupsAndCopySteps : Prop :=
  (∀ s : State,
    let ps := s.mirror.writes.flatMap TableWrite.payloads
    (s.mirror.queue.length + ps.length ≤ 128 →
      closeGroup s =
        { s with
          mirror := { s.mirror with
            writes := []
            queue := s.mirror.queue ++
              ps.mapIdx (fun i p => .write ⟨s.mirror.next + BitVec.ofNat 16 i, decide (i + 1 = ps.length), false, p⟩)
            next := s.mirror.next + BitVec.ofNat 16 ps.length } }) ∧
    (s.mirror.queue.length ≤ 128 → 128 < s.mirror.queue.length + ps.length → s.cu.busy = none → s.mirror.copy = none →
      (closeGroup s).mirror.currency = .stale ∧
      (closeGroup s).mirror.queue.length ≤ 1 ∧
      (closeGroup s).mirror.stopDue = (s.mirror.stopDue || s.mirror.linkUp))) ∧
  (∀ (m : PairTx) (s : State), s.mirror.tx = some m → m.isCopyEnd = false → s.isActive = true →
    ∃ t, exec .pairMessageSent s = .next t ∧
      ({ s with
          mirror := { s.mirror with
            tx := none
            queue := match m with
              | .queued _ => s.mirror.queue.tail
              | _ => s.mirror.queue } } : State).ended t) ∧
  (∀ (m : PairTx) (s : State),
    s.mirror.tx = some m → m.isCopyEnd = false → s.isActive = false → s.mirror.writes = [] →
    let sent : State :=
      { s with
        mirror := { s.mirror with
          tx := none
          queue := match m with
            | .queued _ => s.mirror.queue.tail
            | _ => s.mirror.queue
          relayList := match m with
            | .relay _ true => s.mirror.relayList.tail
            | _ => s.mirror.relayList } }
    ((s.cu.waiting = [] ∨ ∀ a, m ≠ .relay a true) → exec .pairMessageSent s = .next sent.begun) ∧
    (∀ a x rest, m = .relay a true → s.mirror.linkUp = true → s.mirror.relayList.length = 8 →
      s.cu.waiting = x :: rest →
      let e : State :=
        { sent with
          cu := { s.cu with waiting := rest }
          mirror := { sent.mirror with relayList := sent.mirror.relayList ++ [x] } }
      (s.cu.busy.all (fun b => b.begun || b.ended) = true →
        exec .pairMessageSent s =
          .next (State.begun
            (match x with
             | .completion _ => { e with cu := { e.cu with busy := none } }
             | .response _ | .summary _ => e))) ∧
      (∀ r b, x = .response r → s.cu.busy = some b → b.begun = false → b.ended = false →
        (b.work = .takeover false →
          exec .pairMessageSent s =
            .next (State.begun
              { e with
                cu := { e.cu with busy := some { b with begun := true } }
                mirror := { e.mirror with yieldDue := true } })) ∧
        (∀ noted, b.work = .forcedTakeover noted →
          exec .pairMessageSent s =
            .next (State.begun
              { e with
                cu := { e.cu with busy := some { b with begun := true, work := .forcedTakeover s.mirror.currency } }
                mirror := { e.mirror with
                  group := [], forceOut := true, stage := .pulsing, holdOut := false } }))))) ∧
  (∀ (m : PairTx) (s : State), s.mirror.tx = some m → m.isCopyEnd = true →
    (∀ k, s.mirror.copy = some k → k.ended = false) →
    ∃ t, exec .copyEndSent s = .next t ∧
      ({ s with mirror := { s.mirror with tx := none, queue := s.mirror.queue.tail } } : State).ended t) ∧
  (∀ (m : PairTx) (k : Copy) (b : Busy) (s : State),
    s.mirror.tx = some m → m.isCopyEnd = true → s.mirror.copy = some k → k.ended = true → s.isActive = true →
    s.cu.busy = some b → b.ended = false →
    ∃ t, exec .copyEndSent s = .next t ∧ t.tables = s.tables ∧
      t.holdsAnswer (.completion ⟨b.tag, b.work.code, s.mirror.straps.member, true, 2454, none⟩) ∧
      (s.mirror.writes = [] → t.mirror.currency = .current ∧ t.mirror.copy = none)) ∧
  (∀ (k : Copy) (s : State),
    s.mirror.straps.pair = true → s.isActive = true → s.mirror.copy = some k → k.ended = false → k.begun = true →
    let steps := if k.items < 2454 then copyPayloads k.items s else [.copyEnd]
    (128 < s.mirror.queue.length + steps.length → exec .copyItemPlaced s = .next s) ∧
    (s.mirror.queue.length + steps.length ≤ 128 →
      ∃ t, exec .copyItemPlaced s = .next t ∧
        ({ s with
            mirror := { s.mirror with
              queue := s.mirror.queue ++
                steps.mapIdx (fun i p =>
                  .write ⟨s.mirror.next + BitVec.ofNat 16 i, decide (i + 1 = steps.length), true, p⟩)
              next := s.mirror.next + BitVec.ofNat 16 steps.length
              copy := some
                (if k.items < 2454 then { k with items := k.items + 1 } else { k with ended := true }) } } :
          State).ended t)) ∧
  (∀ (k : Copy) (s : State),
    s.mirror.straps.pair = true → s.isActive = true → s.mirror.copy = some k → k.ended = false → k.begun = false →
    (128 ≤ s.mirror.queue.length → exec .copyItemPlaced s = .next s) ∧
    (s.mirror.queue.length < 128 →
      ∃ t, exec .copyItemPlaced s = .next t ∧
        ({ s with
            mirror := { s.mirror with
              queue := s.mirror.queue ++ [.write ⟨s.mirror.next, true, true, .copyBegin⟩]
              next := s.mirror.next + 1
              currency := .stale
              copy := some { k with begun := true } } } : State).ended t)) ∧
  (∀ s : State, s.mirroring →
    (∀ p again c, s.walk = some ⟨p, again⟩ → s.caseAt p = some c → c.phase = .bound → c.flags.tallyFinal = true →
      ∃ t, exec .walkVisit s = .next t ∧
        s.hasMirrored
          ([.slot p { use := (s.slotAt p).use, case := some { c with settleTime := some s.clock.time, phase := .settled } },
            .emitOp (.append ⟨s.handleAt p, .settlement, false⟩)] ++
            s.noticeWrite .caseSettled (.handle (s.handleAt p))) t) ∧
    (∀ f rest, s.centre.rx = f :: rest → f.kind = kindTime → s.downQueue.length < 128 → f.body.length = 4 →
      s.clock.time < fieldAt 0 4 f.body →
      ∃ t, exec .time s = .next t ∧ s.hasMirrored [.clock ⟨fieldAt 0 4 f.body, true⟩] t) ∧
    (∀ f rest, s.station.rx = f :: rest → f.kind = kindSweep → s.upQueue.length < 256 → f.body.length = 5 →
      let n := fieldAt 0 1 f.body
      let v := min (fieldAt 1 4 f.body) (s.clock.time + s.policy.futureSlack)
      let x : Feed := ({ s.feedAt n with sweep := v } : Feed).clearRing
      let swept : State := { s with feeds := SMap.setD s.feeds {} n x }
      n ≤ 63 → (s.feedAt n).active = true → (s.feedAt n).sweep < v →
      ∃ t, exec .sweep s = .next t ∧
        s.hasMirrored (.feed n x :: if swept.minima = s.horizon then [] else [.horizon swept.minima]) t) ∧
    (∀ f rest r n c, s.mode = .attributing → s.station.rx = f :: rest → f.kind ∈ [kindUse, kindLoad, kindSale] →
      s.upQueue.length < 256 → CardRecord.ofFrame f = some r → r.valid = true → lookup r.card s = some n →
      s.caseAt n = some c → (s.feedAt r.feed).active = true → (s.feedAt r.feed).sweep < r.time →
      let a := measured s.policy.owned s.injector (s.feedAt r.feed) r c
      a.lateRecord = false → a.blockedUse = false → (c.phase = .anchored → a.case.phase ≠ .held) →
      ∃ t, exec .attributeRecord s = .next t ∧
        s.hasMirrored [.slot n { use := (s.slotAt n).use, case := some a.case }] t) ∧
    (∀ c q, s.inHand 0x20 c → readPolicy c.params = some q → s.cu.busy = none →
      ∃ t, exec .setPolicy s = .next t ∧
        s.hasMirrored (if policyWith q s.policy = s.policy then [] else [.policy (policyWith q s.policy)]) t) ∧
    (∀ c rs x, s.inHand 0x23 c → readProducts c.params = some rs → s.cu.session = some x → s.cu.busy = none →
      ∃ t, exec .productData s = .next t ∧
        s.hasMirrored
          (rs.mapIdx (fun i r =>
            .product (Nat.repeat (fun n => if n = x.last then x.first else (n + 1) % 256) i x.pointer)
              (r.checked.getD {}))) t) ∧
    (∀ c p n, s.inHand 0x01 c → s.clock.isSet = true → readOpen c.params = some p → p.valid = true →
      p.tr ≤ s.clock.time + s.policy.futureSlack → lookup p.card s = none → s.injector.counter < 4294967295 →
      allocate p.card s = some n → s.cu.busy = none →
      ∃ t, exec .openCase s = .next t ∧
        s.hasMirrored
          [.slot n { use := (s.slotAt n).use, case := some (newCase p) },
            .listOp (.append ⟨s.handleAt n, .add, false⟩)] t) ∧
    (∀ d, s.station.tx = .delta d → d.kind = .remove → (s.named d.handle).isSome = true →
      let i : Injector := ⟨some (s.injector.epoch.getD d.epoch), d.version⟩
      ∃ t, exec .removeInjected s = .next t ∧
        s.hasMirrored
          ((if i = s.injector then [] else [.list i]) ++
            [.listOp (.remove ⟨d.handle, .remove, false⟩),
              .slot d.handle.slot { use := (s.slotAt d.handle.slot).use + 1, case := none }] ++
            (s.emission d.handle .offer).toList.map (fun e => .emitOp (.remove e)) ++
            (s.emission d.handle .settlement).toList.map (fun e => .emitOp (.remove e))) t) ∧
    (∀ n, n < 40 ∨ 60 < n →
      ∃ t, exec (.forcePulseReleased n false) s = .next t ∧
        s.hasMirrored (s.noticeWrite .forceGlitch (.line .force)) t))

/-- R20, R165, R166, R168, R169: what a STANDBY does with a good MIRROR WRITE. A CURRENT one takes the expected number
into its pending group, and applies the group whole at its last message; any other number makes it STALE and sends a
MIRROR STOP. A STALE one disregards all but copy steps, and ordinary writes while it takes a copy; these it takes in the
same way, being CURRENT at COPY END; and after a gap in a copy it disregards all until the next COPY BEGIN. (A copy goes
on through what makes the STANDBY STALE: log entry 40; a group whose beginning was discarded: log entry 41; a copy step
that no COPY BEGIN came before, and a CURRENT standby after a gap: log entry 49.) A group is applied message by message: an item is written with its last part, as carried; a collection
operation acts on its list; a run replaces its list with its first message and adds to it with each further one; and a
case slot moves the spill counts with it (one that stands at 0 stays there: log entry 18). -/
def Obligations.StandbyTakesMirrorWrites : Prop :=
  (∀ (m : MirrorWrite) (s : State), s.mirror.straps.pair = true → s.isActive = false → s.mirror.writes = [] →
    let heard : State := { s with mirror := { s.mirror with linkUp := true, silence := 0 } }
    let copyAfter : CopyTaking := if m.copyStep then .taking else s.mirror.copyRx
    let joined : State :=
      if m.last then
        applyGroup (s.mirror.group ++ [m])
          { heard with
            mirror := { heard.mirror with expected := s.mirror.expected + 1, group := [], copyRx := copyAfter } }
      else
        { heard with
          mirror := { heard.mirror with
            expected := s.mirror.expected + 1, group := s.mirror.group ++ [m], copyRx := copyAfter } }
    exec (.mirrorWrite true m) s =
      .next (State.begun
        (if m.payload = .copyBegin then
          { heard with
            mirror := { heard.mirror with
              currency := .stale, group := [], expected := m.number + 1, copyRx := .taking } }
         else if s.mirror.currency = .current ∨ s.mirror.copyRx = .taking ∨
             (s.mirror.copyRx = .idle ∧ m.copyStep = true) then
           if m.number = s.mirror.expected then
             if m.payload = .copyEnd then
               { joined with mirror := { joined.mirror with currency := .current, copyRx := .idle } }
             else joined
           else
             { heard with
               notices :=
                 if s.mirror.currency = .current then s.notices.counted .mirrorStale (.line .pair) else s.notices
               mirror := { heard.mirror with
                 currency := .stale, group := [], stopDue := true
                 copyRx := if m.copyStep = true ∨ s.mirror.copyRx ≠ .idle then .missed else .idle } }
         else heard))) ∧
  (∀ (ms ns : List MirrorWrite) (s : State), applyGroup (ms ++ ns) s = applyGroup ns (applyGroup ms s)) ∧
  (∀ (m : MirrorWrite) (s : State), s.isActive = false →
    match m.payload with
    | .copyBegin => applyGroup [m] s = s
    | .copyEnd => applyGroup [m] s = s
    | .listRun i es => applyGroup [m] s = { s with listQueue := if i = 0 then es else s.listQueue ++ es }
    | .emitRun i es => applyGroup [m] s = { s with emissions := if i = 0 then es else s.emissions ++ es }
    | .write w part parts =>
      (part + 1 ≠ parts → applyGroup [m] s = s) ∧
      (part + 1 = parts →
        match w with
        | .policy p => applyGroup [m] s = { s with policy := p }
        | .product code e => applyGroup [m] s = { s with products := SMap.setD s.products {} code e }
        | .feed n e => applyGroup [m] s = { s with feeds := SMap.setD s.feeds {} n e }
        | .horizon h => applyGroup [m] s = { s with horizon := h }
        | .list i => applyGroup [m] s = { s with injector := i }
        | .clock c => applyGroup [m] s = { s with clock := c }
        | .notice c e =>
          applyGroup [m] s = { s with notices := { s.notices with entries := SMap.setD s.notices.entries {} c.code e } }
        | .slot n x =>
          let counts (k : Option CaseRecord) (set : Nat) : Nat :=
            if 2048 ≤ n ∧ k.any (fun c => c.card % 512 == set) = true then 1 else 0
          ∃ spill : SMap Nat,
            (∀ set, SMap.getD spill 0 set = s.spillAt set - counts (s.caseAt n) set + counts x.case set) ∧
            applyGroup [m] s = { s with slots := SMap.setD s.slots {} n x, spill := spill }
        | .listOp (.append e) => applyGroup [m] s = { s with listQueue := s.listQueue ++ [e] }
        | .listOp (.withdraw e) | .listOp (.remove e) =>
          applyGroup [m] s =
            { s with listQueue := s.listQueue.eraseP (fun x => x.handle = e.handle ∧ x.kind = e.kind) }
        | .listOp (.replace e) =>
          applyGroup [m] s = { s with listQueue := s.listQueue.map (fun x => if x.handle = e.handle then e else x) }
        | .listOp (.setMark e) =>
          applyGroup [m] s =
            { s with
              listQueue := s.listQueue.map (fun x =>
                if x.handle = e.handle ∧ x.kind = e.kind then { x with cancelled := true } else x) }
        | .emitOp (.append e) => applyGroup [m] s = { s with emissions := s.emissions ++ [e] }
        | .emitOp (.remove e) =>
          applyGroup [m] s =
            { s with emissions := s.emissions.eraseP (fun x => x.handle = e.handle ∧ x.kind = e.kind) }
        | .emitOp (.setMark e) =>
          applyGroup [m] s =
            { s with
              emissions := s.emissions.map (fun x =>
                if x.handle = e.handle ∧ x.kind = e.kind then { x with renewed := true } else x) }
        | .emitOp (.clearMark e) =>
          applyGroup [m] s =
            { s with
              emissions := s.emissions.map (fun x =>
                if x.handle = e.handle ∧ x.kind = e.kind then { x with renewed := false } else x) }))

/-! ### Invariants, and the frame (01, 02, 06, 10, 11) -/

/-- R1, R11, R15, R17, R32, R33, R66, R164, R170: no event takes a queue or buffer beyond its capacity (of an engine that
becomes ACTIVE by a claim alone: `HoldFollowsRole`). A feed's ack ring holds 8 entries at most. The List Queue and the
Emission List hold together with the Case Table after every event but a mirror write, which takes what the partner
sends; and where they do, they hold at most one entry, and one of each kind, for each of the 2,112 slots. -/
def Obligations.CapacitiesAreKept : Prop :=
  (∀ s t : State, s.withinCapacity → s.holdSound → step s = .next t → t.withinCapacity) ∧
  (∀ s t : State, (∀ i ∈ s.pending, i.wf = true) → s.policySound → s.ringsSound → step s = .next t → t.ringsSound) ∧
  (∀ (i : Instr) (rest : List Instr) (s t : State),
    s.pending = i :: rest → (∀ good m, i ≠ .mirrorWrite good m) → s.listsSound → step s = .next t → t.listsSound) ∧
  (∀ s : State, s.listsSound → s.listQueue.length ≤ 2112 ∧ s.emissions.length ≤ 4224)

/-- R19: the law of each line holds from reset on, at every moment at which the engine is ACTIVE and the counters
concerned are below their maximum. A STANDBY's queues are empty, and what a transmitter forwards is the head of its
queue: the two make the law last. (An engine becomes ACTIVE by a claim alone: `HoldFollowsRole`.) -/
def Obligations.RecordsAreConserved : Prop :=
  State.reset.conserved ∧ ∀ s t : State, s.conserved → s.holdSound → step s = .next t → t.conserved

/-- R163: Hold is asserted exactly by an engine that claims or is ACTIVE, after every event; and an ACTIVE engine has
nothing under way on the Hold and Force lines. -/
def Obligations.HoldFollowsRole : Prop :=
  ∀ s t : State, s.holdSound → step s = .next t → t.holdSound

/-- R98, R101, R102 and the tables' canonical form: after every event of well-formed commands the Policy Set lies in its
ranges and every table is in its one form. -/
def Obligations.TablesStayInForm : Prop :=
  ∀ s t : State, (∀ i ∈ s.pending, i.wf = true) → s.policySound → s.canonical → step s = .next t →
    t.policySound ∧ t.canonical

/-- R20 to R22, R24: no event but a mirror write breaks the Case Table: no two live slots hold one card, each set slot
belongs to its card's home set, and each spill count is the number of its live Spill List slots. -/
def Obligations.CaseTableStaysSound : Prop :=
  ∀ (i : Instr) (rest : List Instr) (s t : State),
    s.pending = i :: rest → (∀ good m, i ≠ .mirrorWrite good m) → s.caseTableSound → step s = .next t →
    t.caseTableSound

/-- The state right after reset, an engine without the PAIR strap (log entry 3), meets every invariant stated here. -/
def Obligations.ResetIsSound : Prop :=
  let r := State.reset
  r.withinCapacity ∧ r.ringsSound ∧ r.listsSound ∧ r.holdSound ∧ r.policySound ∧ r.canonical ∧ r.caseTableSound ∧
    r.horizonSound ∧ r.conserved ∧
    r.mirror.writes = []

/-- R177, 11.2: the bytes of every well-formed frame are read back as that frame, and bytes that are read as a frame are
that frame's bytes: no bit of a frame is dropped, and no two runs of bytes are one frame. -/
def Obligations.FramesReadBack : Prop :=
  (∀ f : Frame, f.wf → Frame.ofBytes f.toBytes = some f) ∧
  (∀ (bs : List Byte) (f : Frame), Frame.ofBytes bs = some f → f.wf ∧ f.toBytes = bs)
end

