-- ==== Sys2Proof/Laws/State.lean ====
section
/-! SUPPORT. The small laws of the named updates: one lemma per field per update, so that no later proof
unfolds a record update; and what a noted write changes. -/

namespace Sys2Proof.Machine

/-! ### A noted write -/

@[simp] theorem note_straps (w : TableWrite) (m : MirrorUnit) : (m.note w).straps = m.straps := by
  unfold MirrorUnit.note; split <;> rfl
@[simp] theorem note_role (w : TableWrite) (m : MirrorUnit) : (m.note w).role = m.role := by
  unfold MirrorUnit.note; split <;> rfl
@[simp] theorem note_stage (w : TableWrite) (m : MirrorUnit) : (m.note w).stage = m.stage := by
  unfold MirrorUnit.note; split <;> rfl
@[simp] theorem note_currency (w : TableWrite) (m : MirrorUnit) : (m.note w).currency = m.currency := by
  unfold MirrorUnit.note; split <;> rfl
@[simp] theorem note_queue (w : TableWrite) (m : MirrorUnit) : (m.note w).queue = m.queue := by
  unfold MirrorUnit.note; split <;> rfl
@[simp] theorem note_next (w : TableWrite) (m : MirrorUnit) : (m.note w).next = m.next := by
  unfold MirrorUnit.note; split <;> rfl
@[simp] theorem note_expected (w : TableWrite) (m : MirrorUnit) : (m.note w).expected = m.expected := by
  unfold MirrorUnit.note; split <;> rfl
@[simp] theorem note_group (w : TableWrite) (m : MirrorUnit) : (m.note w).group = m.group := by
  unfold MirrorUnit.note; split <;> rfl
@[simp] theorem note_copyRx (w : TableWrite) (m : MirrorUnit) : (m.note w).copyRx = m.copyRx := by
  unfold MirrorUnit.note; split <;> rfl
@[simp] theorem note_linkUp (w : TableWrite) (m : MirrorUnit) : (m.note w).linkUp = m.linkUp := by
  unfold MirrorUnit.note; split <;> rfl
@[simp] theorem note_silence (w : TableWrite) (m : MirrorUnit) : (m.note w).silence = m.silence := by
  unfold MirrorUnit.note; split <;> rfl
@[simp] theorem note_tx (w : TableWrite) (m : MirrorUnit) : (m.note w).tx = m.tx := by
  unfold MirrorUnit.note; split <;> rfl
@[simp] theorem note_stopDue (w : TableWrite) (m : MirrorUnit) : (m.note w).stopDue = m.stopDue := by
  unfold MirrorUnit.note; split <;> rfl
@[simp] theorem note_yieldDue (w : TableWrite) (m : MirrorUnit) : (m.note w).yieldDue = m.yieldDue := by
  unfold MirrorUnit.note; split <;> rfl
@[simp] theorem note_presenceDue (w : TableWrite) (m : MirrorUnit) : (m.note w).presenceDue = m.presenceDue := by
  unfold MirrorUnit.note; split <;> rfl
@[simp] theorem note_relayList (w : TableWrite) (m : MirrorUnit) : (m.note w).relayList = m.relayList := by
  unfold MirrorUnit.note; split <;> rfl
@[simp] theorem note_relayHold (w : TableWrite) (m : MirrorUnit) : (m.note w).relayHold = m.relayHold := by
  unfold MirrorUnit.note; split <;> rfl
@[simp] theorem note_holdOut (w : TableWrite) (m : MirrorUnit) : (m.note w).holdOut = m.holdOut := by
  unfold MirrorUnit.note; split <;> rfl
@[simp] theorem note_forceOut (w : TableWrite) (m : MirrorUnit) : (m.note w).forceOut = m.forceOut := by
  unfold MirrorUnit.note; split <;> rfl
@[simp] theorem note_drain (w : TableWrite) (m : MirrorUnit) : (m.note w).drain = m.drain := by
  unfold MirrorUnit.note; split <;> rfl
@[simp] theorem note_copy (w : TableWrite) (m : MirrorUnit) : (m.note w).copy = m.copy := by
  unfold MirrorUnit.note; split <;> rfl

@[simp] theorem note_pairing (w : TableWrite) (m : MirrorUnit) : (m.note w).pairing = m.pairing := by
  unfold MirrorUnit.note; split <;> rfl

/-- A write is noted in `writes` alone. -/
theorem note_eq (w : TableWrite) (m : MirrorUnit) : m.note w = { m with writes := (m.note w).writes } := by
  unfold MirrorUnit.note; split <;> rfl

/-- An engine that mirrors nothing notes nothing. -/
theorem note_of_not_mirrors {w : TableWrite} {m : MirrorUnit} (h : m.mirrors w = false) : m.note w = m := by
  simp [MirrorUnit.note, h]

/-! ### The updates of the state -/

@[simp] theorem setSlot_pending (s : State) (n : Nat) (x : Slot) : (s.setSlot n x).pending = s.pending := rfl
@[simp] theorem setSlot_station (s : State) (n : Nat) (x : Slot) : (s.setSlot n x).station = s.station := rfl
@[simp] theorem setSlot_centre (s : State) (n : Nat) (x : Slot) : (s.setSlot n x).centre = s.centre := rfl
@[simp] theorem setSlot_upQueue (s : State) (n : Nat) (x : Slot) : (s.setSlot n x).upQueue = s.upQueue := rfl
@[simp] theorem setSlot_downQueue (s : State) (n : Nat) (x : Slot) : (s.setSlot n x).downQueue = s.downQueue := rfl
@[simp] theorem setSlot_insertQueue (s : State) (n : Nat) (x : Slot) :
    (s.setSlot n x).insertQueue = s.insertQueue := rfl
@[simp] theorem setSlot_upPointer (s : State) (n : Nat) (x : Slot) : (s.setSlot n x).upPointer = s.upPointer := rfl
@[simp] theorem setSlot_deltaCount (s : State) (n : Nat) (x : Slot) :
    (s.setSlot n x).deltaCount = s.deltaCount := rfl
@[simp] theorem setSlot_mode (s : State) (n : Nat) (x : Slot) : (s.setSlot n x).mode = s.mode := rfl
@[simp] theorem setSlot_slots (s : State) (n : Nat) (x : Slot) :
    (s.setSlot n x).slots = SMap.setD s.slots {} n x := rfl
@[simp] theorem setSlot_spill (s : State) (n : Nat) (x : Slot) : (s.setSlot n x).spill = s.spill := rfl
@[simp] theorem setSlot_listQueue (s : State) (n : Nat) (x : Slot) : (s.setSlot n x).listQueue = s.listQueue := rfl
@[simp] theorem setSlot_emissions (s : State) (n : Nat) (x : Slot) : (s.setSlot n x).emissions = s.emissions := rfl
@[simp] theorem setSlot_feeds (s : State) (n : Nat) (x : Slot) : (s.setSlot n x).feeds = s.feeds := rfl
@[simp] theorem setSlot_horizon (s : State) (n : Nat) (x : Slot) : (s.setSlot n x).horizon = s.horizon := rfl
@[simp] theorem setSlot_walk (s : State) (n : Nat) (x : Slot) : (s.setSlot n x).walk = s.walk := rfl
@[simp] theorem setSlot_clock (s : State) (n : Nat) (x : Slot) : (s.setSlot n x).clock = s.clock := rfl
@[simp] theorem setSlot_injector (s : State) (n : Nat) (x : Slot) : (s.setSlot n x).injector = s.injector := rfl
@[simp] theorem setSlot_products (s : State) (n : Nat) (x : Slot) : (s.setSlot n x).products = s.products := rfl
@[simp] theorem setSlot_policy (s : State) (n : Nat) (x : Slot) : (s.setSlot n x).policy = s.policy := rfl
@[simp] theorem setSlot_cu (s : State) (n : Nat) (x : Slot) : (s.setSlot n x).cu = s.cu := rfl
@[simp] theorem setSlot_notices (s : State) (n : Nat) (x : Slot) : (s.setSlot n x).notices = s.notices := rfl
@[simp] theorem setSlot_mirror (s : State) (n : Nat) (x : Slot) :
    (s.setSlot n x).mirror = s.mirror.note (.slot n x) := rfl
@[simp] theorem setSlot_resetCause (s : State) (n : Nat) (x : Slot) :
    (s.setSlot n x).resetCause = s.resetCause := rfl
@[simp] theorem setSlot_draws (s : State) (n : Nat) (x : Slot) : (s.setSlot n x).draws = s.draws := rfl

@[simp] theorem fillSlot_pending (s : State) (n : Nat) (x : Slot) : (s.fillSlot n x).pending = s.pending := rfl
@[simp] theorem fillSlot_station (s : State) (n : Nat) (x : Slot) : (s.fillSlot n x).station = s.station := rfl
@[simp] theorem fillSlot_centre (s : State) (n : Nat) (x : Slot) : (s.fillSlot n x).centre = s.centre := rfl
@[simp] theorem fillSlot_upQueue (s : State) (n : Nat) (x : Slot) : (s.fillSlot n x).upQueue = s.upQueue := rfl
@[simp] theorem fillSlot_downQueue (s : State) (n : Nat) (x : Slot) : (s.fillSlot n x).downQueue = s.downQueue := rfl
@[simp] theorem fillSlot_insertQueue (s : State) (n : Nat) (x : Slot) :
    (s.fillSlot n x).insertQueue = s.insertQueue := rfl
@[simp] theorem fillSlot_upPointer (s : State) (n : Nat) (x : Slot) : (s.fillSlot n x).upPointer = s.upPointer := rfl
@[simp] theorem fillSlot_deltaCount (s : State) (n : Nat) (x : Slot) :
    (s.fillSlot n x).deltaCount = s.deltaCount := rfl
@[simp] theorem fillSlot_mode (s : State) (n : Nat) (x : Slot) : (s.fillSlot n x).mode = s.mode := rfl
@[simp] theorem fillSlot_slots (s : State) (n : Nat) (x : Slot) :
    (s.fillSlot n x).slots = SMap.setD s.slots {} n x := rfl
@[simp] theorem fillSlot_spill (s : State) (n : Nat) (x : Slot) :
    (s.fillSlot n x).spill = adjustSpill n (s.caseAt n) x.case s.spill := rfl
@[simp] theorem fillSlot_listQueue (s : State) (n : Nat) (x : Slot) : (s.fillSlot n x).listQueue = s.listQueue := rfl
@[simp] theorem fillSlot_emissions (s : State) (n : Nat) (x : Slot) : (s.fillSlot n x).emissions = s.emissions := rfl
@[simp] theorem fillSlot_feeds (s : State) (n : Nat) (x : Slot) : (s.fillSlot n x).feeds = s.feeds := rfl
@[simp] theorem fillSlot_horizon (s : State) (n : Nat) (x : Slot) : (s.fillSlot n x).horizon = s.horizon := rfl
@[simp] theorem fillSlot_walk (s : State) (n : Nat) (x : Slot) : (s.fillSlot n x).walk = s.walk := rfl
@[simp] theorem fillSlot_clock (s : State) (n : Nat) (x : Slot) : (s.fillSlot n x).clock = s.clock := rfl
@[simp] theorem fillSlot_injector (s : State) (n : Nat) (x : Slot) : (s.fillSlot n x).injector = s.injector := rfl
@[simp] theorem fillSlot_products (s : State) (n : Nat) (x : Slot) : (s.fillSlot n x).products = s.products := rfl
@[simp] theorem fillSlot_policy (s : State) (n : Nat) (x : Slot) : (s.fillSlot n x).policy = s.policy := rfl
@[simp] theorem fillSlot_cu (s : State) (n : Nat) (x : Slot) : (s.fillSlot n x).cu = s.cu := rfl
@[simp] theorem fillSlot_notices (s : State) (n : Nat) (x : Slot) : (s.fillSlot n x).notices = s.notices := rfl
@[simp] theorem fillSlot_mirror (s : State) (n : Nat) (x : Slot) :
    (s.fillSlot n x).mirror = s.mirror.note (.slot n x) := rfl
@[simp] theorem fillSlot_resetCause (s : State) (n : Nat) (x : Slot) :
    (s.fillSlot n x).resetCause = s.resetCause := rfl
@[simp] theorem fillSlot_draws (s : State) (n : Nat) (x : Slot) : (s.fillSlot n x).draws = s.draws := rfl

@[simp] theorem setFeed_pending (s : State) (n : Nat) (x : Feed) : (s.setFeed n x).pending = s.pending := rfl
@[simp] theorem setFeed_station (s : State) (n : Nat) (x : Feed) : (s.setFeed n x).station = s.station := rfl
@[simp] theorem setFeed_centre (s : State) (n : Nat) (x : Feed) : (s.setFeed n x).centre = s.centre := rfl
@[simp] theorem setFeed_upQueue (s : State) (n : Nat) (x : Feed) : (s.setFeed n x).upQueue = s.upQueue := rfl
@[simp] theorem setFeed_downQueue (s : State) (n : Nat) (x : Feed) : (s.setFeed n x).downQueue = s.downQueue := rfl
@[simp] theorem setFeed_insertQueue (s : State) (n : Nat) (x : Feed) :
    (s.setFeed n x).insertQueue = s.insertQueue := rfl
@[simp] theorem setFeed_upPointer (s : State) (n : Nat) (x : Feed) : (s.setFeed n x).upPointer = s.upPointer := rfl
@[simp] theorem setFeed_deltaCount (s : State) (n : Nat) (x : Feed) :
    (s.setFeed n x).deltaCount = s.deltaCount := rfl
@[simp] theorem setFeed_mode (s : State) (n : Nat) (x : Feed) : (s.setFeed n x).mode = s.mode := rfl
@[simp] theorem setFeed_slots (s : State) (n : Nat) (x : Feed) : (s.setFeed n x).slots = s.slots := rfl
@[simp] theorem setFeed_spill (s : State) (n : Nat) (x : Feed) : (s.setFeed n x).spill = s.spill := rfl
@[simp] theorem setFeed_listQueue (s : State) (n : Nat) (x : Feed) : (s.setFeed n x).listQueue = s.listQueue := rfl
@[simp] theorem setFeed_emissions (s : State) (n : Nat) (x : Feed) : (s.setFeed n x).emissions = s.emissions := rfl
@[simp] theorem setFeed_feeds (s : State) (n : Nat) (x : Feed) :
    (s.setFeed n x).feeds = SMap.setD s.feeds {} n x := rfl
@[simp] theorem setFeed_horizon (s : State) (n : Nat) (x : Feed) : (s.setFeed n x).horizon = s.horizon := rfl
@[simp] theorem setFeed_walk (s : State) (n : Nat) (x : Feed) : (s.setFeed n x).walk = s.walk := rfl
@[simp] theorem setFeed_clock (s : State) (n : Nat) (x : Feed) : (s.setFeed n x).clock = s.clock := rfl
@[simp] theorem setFeed_injector (s : State) (n : Nat) (x : Feed) : (s.setFeed n x).injector = s.injector := rfl
@[simp] theorem setFeed_products (s : State) (n : Nat) (x : Feed) : (s.setFeed n x).products = s.products := rfl
@[simp] theorem setFeed_policy (s : State) (n : Nat) (x : Feed) : (s.setFeed n x).policy = s.policy := rfl
@[simp] theorem setFeed_cu (s : State) (n : Nat) (x : Feed) : (s.setFeed n x).cu = s.cu := rfl
@[simp] theorem setFeed_notices (s : State) (n : Nat) (x : Feed) : (s.setFeed n x).notices = s.notices := rfl
@[simp] theorem setFeed_mirror (s : State) (n : Nat) (x : Feed) :
    (s.setFeed n x).mirror = if x = s.feedAt n then s.mirror else s.mirror.note (.feed n x) := rfl
@[simp] theorem setFeed_resetCause (s : State) (n : Nat) (x : Feed) :
    (s.setFeed n x).resetCause = s.resetCause := rfl
@[simp] theorem setFeed_draws (s : State) (n : Nat) (x : Feed) : (s.setFeed n x).draws = s.draws := rfl

@[simp] theorem setHorizon_pending (s : State) (x : Horizon) : (s.setHorizon x).pending = s.pending := rfl
@[simp] theorem setHorizon_station (s : State) (x : Horizon) : (s.setHorizon x).station = s.station := rfl
@[simp] theorem setHorizon_centre (s : State) (x : Horizon) : (s.setHorizon x).centre = s.centre := rfl
@[simp] theorem setHorizon_upQueue (s : State) (x : Horizon) : (s.setHorizon x).upQueue = s.upQueue := rfl
@[simp] theorem setHorizon_downQueue (s : State) (x : Horizon) : (s.setHorizon x).downQueue = s.downQueue := rfl
@[simp] theorem setHorizon_insertQueue (s : State) (x : Horizon) :
    (s.setHorizon x).insertQueue = s.insertQueue := rfl
@[simp] theorem setHorizon_upPointer (s : State) (x : Horizon) : (s.setHorizon x).upPointer = s.upPointer := rfl
@[simp] theorem setHorizon_deltaCount (s : State) (x : Horizon) : (s.setHorizon x).deltaCount = s.deltaCount := rfl
@[simp] theorem setHorizon_mode (s : State) (x : Horizon) : (s.setHorizon x).mode = s.mode := rfl
@[simp] theorem setHorizon_slots (s : State) (x : Horizon) : (s.setHorizon x).slots = s.slots := rfl
@[simp] theorem setHorizon_spill (s : State) (x : Horizon) : (s.setHorizon x).spill = s.spill := rfl
@[simp] theorem setHorizon_listQueue (s : State) (x : Horizon) : (s.setHorizon x).listQueue = s.listQueue := rfl
@[simp] theorem setHorizon_emissions (s : State) (x : Horizon) : (s.setHorizon x).emissions = s.emissions := rfl
@[simp] theorem setHorizon_feeds (s : State) (x : Horizon) : (s.setHorizon x).feeds = s.feeds := rfl
@[simp] theorem setHorizon_horizon (s : State) (x : Horizon) : (s.setHorizon x).horizon = x := rfl
@[simp] theorem setHorizon_walk (s : State) (x : Horizon) : (s.setHorizon x).walk = s.walk := rfl
@[simp] theorem setHorizon_clock (s : State) (x : Horizon) : (s.setHorizon x).clock = s.clock := rfl
@[simp] theorem setHorizon_injector (s : State) (x : Horizon) : (s.setHorizon x).injector = s.injector := rfl
@[simp] theorem setHorizon_products (s : State) (x : Horizon) : (s.setHorizon x).products = s.products := rfl
@[simp] theorem setHorizon_policy (s : State) (x : Horizon) : (s.setHorizon x).policy = s.policy := rfl
@[simp] theorem setHorizon_cu (s : State) (x : Horizon) : (s.setHorizon x).cu = s.cu := rfl
@[simp] theorem setHorizon_notices (s : State) (x : Horizon) : (s.setHorizon x).notices = s.notices := rfl
@[simp] theorem setHorizon_mirror (s : State) (x : Horizon) :
    (s.setHorizon x).mirror = if x = s.horizon then s.mirror else s.mirror.note (.horizon x) := rfl
@[simp] theorem setHorizon_resetCause (s : State) (x : Horizon) : (s.setHorizon x).resetCause = s.resetCause := rfl
@[simp] theorem setHorizon_draws (s : State) (x : Horizon) : (s.setHorizon x).draws = s.draws := rfl

@[simp] theorem setInjector_pending (s : State) (x : Injector) : (s.setInjector x).pending = s.pending := rfl
@[simp] theorem setInjector_station (s : State) (x : Injector) : (s.setInjector x).station = s.station := rfl
@[simp] theorem setInjector_centre (s : State) (x : Injector) : (s.setInjector x).centre = s.centre := rfl
@[simp] theorem setInjector_upQueue (s : State) (x : Injector) : (s.setInjector x).upQueue = s.upQueue := rfl
@[simp] theorem setInjector_downQueue (s : State) (x : Injector) : (s.setInjector x).downQueue = s.downQueue := rfl
@[simp] theorem setInjector_insertQueue (s : State) (x : Injector) :
    (s.setInjector x).insertQueue = s.insertQueue := rfl
@[simp] theorem setInjector_upPointer (s : State) (x : Injector) : (s.setInjector x).upPointer = s.upPointer := rfl
@[simp] theorem setInjector_deltaCount (s : State) (x : Injector) :
    (s.setInjector x).deltaCount = s.deltaCount := rfl
@[simp] theorem setInjector_mode (s : State) (x : Injector) : (s.setInjector x).mode = s.mode := rfl
@[simp] theorem setInjector_slots (s : State) (x : Injector) : (s.setInjector x).slots = s.slots := rfl
@[simp] theorem setInjector_spill (s : State) (x : Injector) : (s.setInjector x).spill = s.spill := rfl
@[simp] theorem setInjector_listQueue (s : State) (x : Injector) : (s.setInjector x).listQueue = s.listQueue := rfl
@[simp] theorem setInjector_emissions (s : State) (x : Injector) : (s.setInjector x).emissions = s.emissions := rfl
@[simp] theorem setInjector_feeds (s : State) (x : Injector) : (s.setInjector x).feeds = s.feeds := rfl
@[simp] theorem setInjector_horizon (s : State) (x : Injector) : (s.setInjector x).horizon = s.horizon := rfl
@[simp] theorem setInjector_walk (s : State) (x : Injector) : (s.setInjector x).walk = s.walk := rfl
@[simp] theorem setInjector_clock (s : State) (x : Injector) : (s.setInjector x).clock = s.clock := rfl
@[simp] theorem setInjector_injector (s : State) (x : Injector) : (s.setInjector x).injector = x := rfl
@[simp] theorem setInjector_products (s : State) (x : Injector) : (s.setInjector x).products = s.products := rfl
@[simp] theorem setInjector_policy (s : State) (x : Injector) : (s.setInjector x).policy = s.policy := rfl
@[simp] theorem setInjector_cu (s : State) (x : Injector) : (s.setInjector x).cu = s.cu := rfl
@[simp] theorem setInjector_notices (s : State) (x : Injector) : (s.setInjector x).notices = s.notices := rfl
@[simp] theorem setInjector_mirror (s : State) (x : Injector) :
    (s.setInjector x).mirror = if x = s.injector then s.mirror else s.mirror.note (.list x) := rfl
@[simp] theorem setInjector_resetCause (s : State) (x : Injector) :
    (s.setInjector x).resetCause = s.resetCause := rfl
@[simp] theorem setInjector_draws (s : State) (x : Injector) : (s.setInjector x).draws = s.draws := rfl

@[simp] theorem setClock_pending (s : State) (x : Clock) : (s.setClock x).pending = s.pending := rfl
@[simp] theorem setClock_station (s : State) (x : Clock) : (s.setClock x).station = s.station := rfl
@[simp] theorem setClock_centre (s : State) (x : Clock) : (s.setClock x).centre = s.centre := rfl
@[simp] theorem setClock_upQueue (s : State) (x : Clock) : (s.setClock x).upQueue = s.upQueue := rfl
@[simp] theorem setClock_downQueue (s : State) (x : Clock) : (s.setClock x).downQueue = s.downQueue := rfl
@[simp] theorem setClock_insertQueue (s : State) (x : Clock) : (s.setClock x).insertQueue = s.insertQueue := rfl
@[simp] theorem setClock_upPointer (s : State) (x : Clock) : (s.setClock x).upPointer = s.upPointer := rfl
@[simp] theorem setClock_deltaCount (s : State) (x : Clock) : (s.setClock x).deltaCount = s.deltaCount := rfl
@[simp] theorem setClock_mode (s : State) (x : Clock) : (s.setClock x).mode = s.mode := rfl
@[simp] theorem setClock_slots (s : State) (x : Clock) : (s.setClock x).slots = s.slots := rfl
@[simp] theorem setClock_spill (s : State) (x : Clock) : (s.setClock x).spill = s.spill := rfl
@[simp] theorem setClock_listQueue (s : State) (x : Clock) : (s.setClock x).listQueue = s.listQueue := rfl
@[simp] theorem setClock_emissions (s : State) (x : Clock) : (s.setClock x).emissions = s.emissions := rfl
@[simp] theorem setClock_feeds (s : State) (x : Clock) : (s.setClock x).feeds = s.feeds := rfl
@[simp] theorem setClock_horizon (s : State) (x : Clock) : (s.setClock x).horizon = s.horizon := rfl
@[simp] theorem setClock_walk (s : State) (x : Clock) : (s.setClock x).walk = s.walk := rfl
@[simp] theorem setClock_clock (s : State) (x : Clock) : (s.setClock x).clock = x := rfl
@[simp] theorem setClock_injector (s : State) (x : Clock) : (s.setClock x).injector = s.injector := rfl
@[simp] theorem setClock_products (s : State) (x : Clock) : (s.setClock x).products = s.products := rfl
@[simp] theorem setClock_policy (s : State) (x : Clock) : (s.setClock x).policy = s.policy := rfl
@[simp] theorem setClock_cu (s : State) (x : Clock) : (s.setClock x).cu = s.cu := rfl
@[simp] theorem setClock_notices (s : State) (x : Clock) : (s.setClock x).notices = s.notices := rfl
@[simp] theorem setClock_mirror (s : State) (x : Clock) : (s.setClock x).mirror = s.mirror.note (.clock x) := rfl
@[simp] theorem setClock_resetCause (s : State) (x : Clock) : (s.setClock x).resetCause = s.resetCause := rfl
@[simp] theorem setClock_draws (s : State) (x : Clock) : (s.setClock x).draws = s.draws := rfl

@[simp] theorem setProduct_pending (s : State) (n : Nat) (x : Product) :
    (s.setProduct n x).pending = s.pending := rfl
@[simp] theorem setProduct_station (s : State) (n : Nat) (x : Product) :
    (s.setProduct n x).station = s.station := rfl
@[simp] theorem setProduct_centre (s : State) (n : Nat) (x : Product) : (s.setProduct n x).centre = s.centre := rfl
@[simp] theorem setProduct_upQueue (s : State) (n : Nat) (x : Product) :
    (s.setProduct n x).upQueue = s.upQueue := rfl
@[simp] theorem setProduct_downQueue (s : State) (n : Nat) (x : Product) :
    (s.setProduct n x).downQueue = s.downQueue := rfl
@[simp] theorem setProduct_insertQueue (s : State) (n : Nat) (x : Product) :
    (s.setProduct n x).insertQueue = s.insertQueue := rfl
@[simp] theorem setProduct_upPointer (s : State) (n : Nat) (x : Product) :
    (s.setProduct n x).upPointer = s.upPointer := rfl
@[simp] theorem setProduct_deltaCount (s : State) (n : Nat) (x : Product) :
    (s.setProduct n x).deltaCount = s.deltaCount := rfl
@[simp] theorem setProduct_mode (s : State) (n : Nat) (x : Product) : (s.setProduct n x).mode = s.mode := rfl
@[simp] theorem setProduct_slots (s : State) (n : Nat) (x : Product) : (s.setProduct n x).slots = s.slots := rfl
@[simp] theorem setProduct_spill (s : State) (n : Nat) (x : Product) : (s.setProduct n x).spill = s.spill := rfl
@[simp] theorem setProduct_listQueue (s : State) (n : Nat) (x : Product) :
    (s.setProduct n x).listQueue = s.listQueue := rfl
@[simp] theorem setProduct_emissions (s : State) (n : Nat) (x : Product) :
    (s.setProduct n x).emissions = s.emissions := rfl
@[simp] theorem setProduct_feeds (s : State) (n : Nat) (x : Product) : (s.setProduct n x).feeds = s.feeds := rfl
@[simp] theorem setProduct_horizon (s : State) (n : Nat) (x : Product) :
    (s.setProduct n x).horizon = s.horizon := rfl
@[simp] theorem setProduct_walk (s : State) (n : Nat) (x : Product) : (s.setProduct n x).walk = s.walk := rfl
@[simp] theorem setProduct_clock (s : State) (n : Nat) (x : Product) : (s.setProduct n x).clock = s.clock := rfl
@[simp] theorem setProduct_injector (s : State) (n : Nat) (x : Product) :
    (s.setProduct n x).injector = s.injector := rfl
@[simp] theorem setProduct_products (s : State) (n : Nat) (x : Product) :
    (s.setProduct n x).products = SMap.setD s.products {} n x := rfl
@[simp] theorem setProduct_policy (s : State) (n : Nat) (x : Product) : (s.setProduct n x).policy = s.policy := rfl
@[simp] theorem setProduct_cu (s : State) (n : Nat) (x : Product) : (s.setProduct n x).cu = s.cu := rfl
@[simp] theorem setProduct_notices (s : State) (n : Nat) (x : Product) :
    (s.setProduct n x).notices = s.notices := rfl
@[simp] theorem setProduct_mirror (s : State) (n : Nat) (x : Product) :
    (s.setProduct n x).mirror = s.mirror.note (.product n x) := rfl
@[simp] theorem setProduct_resetCause (s : State) (n : Nat) (x : Product) :
    (s.setProduct n x).resetCause = s.resetCause := rfl
@[simp] theorem setProduct_draws (s : State) (n : Nat) (x : Product) : (s.setProduct n x).draws = s.draws := rfl

@[simp] theorem setPolicy_pending (s : State) (x : Policy) : (s.setPolicy x).pending = s.pending := rfl
@[simp] theorem setPolicy_station (s : State) (x : Policy) : (s.setPolicy x).station = s.station := rfl
@[simp] theorem setPolicy_centre (s : State) (x : Policy) : (s.setPolicy x).centre = s.centre := rfl
@[simp] theorem setPolicy_upQueue (s : State) (x : Policy) : (s.setPolicy x).upQueue = s.upQueue := rfl
@[simp] theorem setPolicy_downQueue (s : State) (x : Policy) : (s.setPolicy x).downQueue = s.downQueue := rfl
@[simp] theorem setPolicy_insertQueue (s : State) (x : Policy) : (s.setPolicy x).insertQueue = s.insertQueue := rfl
@[simp] theorem setPolicy_upPointer (s : State) (x : Policy) : (s.setPolicy x).upPointer = s.upPointer := rfl
@[simp] theorem setPolicy_deltaCount (s : State) (x : Policy) : (s.setPolicy x).deltaCount = s.deltaCount := rfl
@[simp] theorem setPolicy_mode (s : State) (x : Policy) : (s.setPolicy x).mode = s.mode := rfl
@[simp] theorem setPolicy_slots (s : State) (x : Policy) : (s.setPolicy x).slots = s.slots := rfl
@[simp] theorem setPolicy_spill (s : State) (x : Policy) : (s.setPolicy x).spill = s.spill := rfl
@[simp] theorem setPolicy_listQueue (s : State) (x : Policy) : (s.setPolicy x).listQueue = s.listQueue := rfl
@[simp] theorem setPolicy_emissions (s : State) (x : Policy) : (s.setPolicy x).emissions = s.emissions := rfl
@[simp] theorem setPolicy_feeds (s : State) (x : Policy) : (s.setPolicy x).feeds = s.feeds := rfl
@[simp] theorem setPolicy_horizon (s : State) (x : Policy) : (s.setPolicy x).horizon = s.horizon := rfl
@[simp] theorem setPolicy_walk (s : State) (x : Policy) : (s.setPolicy x).walk = s.walk := rfl
@[simp] theorem setPolicy_clock (s : State) (x : Policy) : (s.setPolicy x).clock = s.clock := rfl
@[simp] theorem setPolicy_injector (s : State) (x : Policy) : (s.setPolicy x).injector = s.injector := rfl
@[simp] theorem setPolicy_products (s : State) (x : Policy) : (s.setPolicy x).products = s.products := rfl
@[simp] theorem setPolicy_policy (s : State) (x : Policy) : (s.setPolicy x).policy = x := rfl
@[simp] theorem setPolicy_cu (s : State) (x : Policy) : (s.setPolicy x).cu = s.cu := rfl
@[simp] theorem setPolicy_notices (s : State) (x : Policy) : (s.setPolicy x).notices = s.notices := rfl
@[simp] theorem setPolicy_mirror (s : State) (x : Policy) :
    (s.setPolicy x).mirror = if x = s.policy then s.mirror else s.mirror.note (.policy x) := rfl
@[simp] theorem setPolicy_resetCause (s : State) (x : Policy) : (s.setPolicy x).resetCause = s.resetCause := rfl
@[simp] theorem setPolicy_draws (s : State) (x : Policy) : (s.setPolicy x).draws = s.draws := rfl

@[simp] theorem setNotice_pending (s : State) (c : NoticeClass) (x : NoticeEntry) :
    (s.setNotice c x).pending = s.pending := rfl
@[simp] theorem setNotice_station (s : State) (c : NoticeClass) (x : NoticeEntry) :
    (s.setNotice c x).station = s.station := rfl
@[simp] theorem setNotice_centre (s : State) (c : NoticeClass) (x : NoticeEntry) :
    (s.setNotice c x).centre = s.centre := rfl
@[simp] theorem setNotice_upQueue (s : State) (c : NoticeClass) (x : NoticeEntry) :
    (s.setNotice c x).upQueue = s.upQueue := rfl
@[simp] theorem setNotice_downQueue (s : State) (c : NoticeClass) (x : NoticeEntry) :
    (s.setNotice c x).downQueue = s.downQueue := rfl
@[simp] theorem setNotice_insertQueue (s : State) (c : NoticeClass) (x : NoticeEntry) :
    (s.setNotice c x).insertQueue = s.insertQueue := rfl
@[simp] theorem setNotice_upPointer (s : State) (c : NoticeClass) (x : NoticeEntry) :
    (s.setNotice c x).upPointer = s.upPointer := rfl
@[simp] theorem setNotice_deltaCount (s : State) (c : NoticeClass) (x : NoticeEntry) :
    (s.setNotice c x).deltaCount = s.deltaCount := rfl
@[simp] theorem setNotice_mode (s : State) (c : NoticeClass) (x : NoticeEntry) :
    (s.setNotice c x).mode = s.mode := rfl
@[simp] theorem setNotice_slots (s : State) (c : NoticeClass) (x : NoticeEntry) :
    (s.setNotice c x).slots = s.slots := rfl
@[simp] theorem setNotice_spill (s : State) (c : NoticeClass) (x : NoticeEntry) :
    (s.setNotice c x).spill = s.spill := rfl
@[simp] theorem setNotice_listQueue (s : State) (c : NoticeClass) (x : NoticeEntry) :
    (s.setNotice c x).listQueue = s.listQueue := rfl
@[simp] theorem setNotice_emissions (s : State) (c : NoticeClass) (x : NoticeEntry) :
    (s.setNotice c x).emissions = s.emissions := rfl
@[simp] theorem setNotice_feeds (s : State) (c : NoticeClass) (x : NoticeEntry) :
    (s.setNotice c x).feeds = s.feeds := rfl
@[simp] theorem setNotice_horizon (s : State) (c : NoticeClass) (x : NoticeEntry) :
    (s.setNotice c x).horizon = s.horizon := rfl
@[simp] theorem setNotice_walk (s : State) (c : NoticeClass) (x : NoticeEntry) :
    (s.setNotice c x).walk = s.walk := rfl
@[simp] theorem setNotice_clock (s : State) (c : NoticeClass) (x : NoticeEntry) :
    (s.setNotice c x).clock = s.clock := rfl
@[simp] theorem setNotice_injector (s : State) (c : NoticeClass) (x : NoticeEntry) :
    (s.setNotice c x).injector = s.injector := rfl
@[simp] theorem setNotice_products (s : State) (c : NoticeClass) (x : NoticeEntry) :
    (s.setNotice c x).products = s.products := rfl
@[simp] theorem setNotice_policy (s : State) (c : NoticeClass) (x : NoticeEntry) :
    (s.setNotice c x).policy = s.policy := rfl
@[simp] theorem setNotice_cu (s : State) (c : NoticeClass) (x : NoticeEntry) : (s.setNotice c x).cu = s.cu := rfl
@[simp] theorem setNotice_notices (s : State) (c : NoticeClass) (x : NoticeEntry) :
    (s.setNotice c x).notices = { s.notices with entries := SMap.setD s.notices.entries {} c.code x } := rfl
@[simp] theorem setNotice_mirror (s : State) (c : NoticeClass) (x : NoticeEntry) :
    (s.setNotice c x).mirror = if x = s.noticeAt c then s.mirror else s.mirror.note (.notice c x) := rfl
@[simp] theorem setNotice_resetCause (s : State) (c : NoticeClass) (x : NoticeEntry) :
    (s.setNotice c x).resetCause = s.resetCause := rfl
@[simp] theorem setNotice_draws (s : State) (c : NoticeClass) (x : NoticeEntry) :
    (s.setNotice c x).draws = s.draws := rfl

@[simp] theorem doListOp_pending (s : State) (op : ListOp) : (s.doListOp op).pending = s.pending := rfl
@[simp] theorem doListOp_station (s : State) (op : ListOp) : (s.doListOp op).station = s.station := rfl
@[simp] theorem doListOp_centre (s : State) (op : ListOp) : (s.doListOp op).centre = s.centre := rfl
@[simp] theorem doListOp_upQueue (s : State) (op : ListOp) : (s.doListOp op).upQueue = s.upQueue := rfl
@[simp] theorem doListOp_downQueue (s : State) (op : ListOp) : (s.doListOp op).downQueue = s.downQueue := rfl
@[simp] theorem doListOp_insertQueue (s : State) (op : ListOp) : (s.doListOp op).insertQueue = s.insertQueue := rfl
@[simp] theorem doListOp_upPointer (s : State) (op : ListOp) : (s.doListOp op).upPointer = s.upPointer := rfl
@[simp] theorem doListOp_deltaCount (s : State) (op : ListOp) : (s.doListOp op).deltaCount = s.deltaCount := rfl
@[simp] theorem doListOp_mode (s : State) (op : ListOp) : (s.doListOp op).mode = s.mode := rfl
@[simp] theorem doListOp_slots (s : State) (op : ListOp) : (s.doListOp op).slots = s.slots := rfl
@[simp] theorem doListOp_spill (s : State) (op : ListOp) : (s.doListOp op).spill = s.spill := rfl
@[simp] theorem doListOp_listQueue (s : State) (op : ListOp) :
    (s.doListOp op).listQueue = op.apply s.listQueue := rfl
@[simp] theorem doListOp_emissions (s : State) (op : ListOp) : (s.doListOp op).emissions = s.emissions := rfl
@[simp] theorem doListOp_feeds (s : State) (op : ListOp) : (s.doListOp op).feeds = s.feeds := rfl
@[simp] theorem doListOp_horizon (s : State) (op : ListOp) : (s.doListOp op).horizon = s.horizon := rfl
@[simp] theorem doListOp_walk (s : State) (op : ListOp) : (s.doListOp op).walk = s.walk := rfl
@[simp] theorem doListOp_clock (s : State) (op : ListOp) : (s.doListOp op).clock = s.clock := rfl
@[simp] theorem doListOp_injector (s : State) (op : ListOp) : (s.doListOp op).injector = s.injector := rfl
@[simp] theorem doListOp_products (s : State) (op : ListOp) : (s.doListOp op).products = s.products := rfl
@[simp] theorem doListOp_policy (s : State) (op : ListOp) : (s.doListOp op).policy = s.policy := rfl
@[simp] theorem doListOp_cu (s : State) (op : ListOp) : (s.doListOp op).cu = s.cu := rfl
@[simp] theorem doListOp_notices (s : State) (op : ListOp) : (s.doListOp op).notices = s.notices := rfl
@[simp] theorem doListOp_mirror (s : State) (op : ListOp) :
    (s.doListOp op).mirror = s.mirror.note (.listOp op) := rfl
@[simp] theorem doListOp_resetCause (s : State) (op : ListOp) : (s.doListOp op).resetCause = s.resetCause := rfl
@[simp] theorem doListOp_draws (s : State) (op : ListOp) : (s.doListOp op).draws = s.draws := rfl

@[simp] theorem doEmitOp_pending (s : State) (op : EmitOp) : (s.doEmitOp op).pending = s.pending := rfl
@[simp] theorem doEmitOp_station (s : State) (op : EmitOp) : (s.doEmitOp op).station = s.station := rfl
@[simp] theorem doEmitOp_centre (s : State) (op : EmitOp) : (s.doEmitOp op).centre = s.centre := rfl
@[simp] theorem doEmitOp_upQueue (s : State) (op : EmitOp) : (s.doEmitOp op).upQueue = s.upQueue := rfl
@[simp] theorem doEmitOp_downQueue (s : State) (op : EmitOp) : (s.doEmitOp op).downQueue = s.downQueue := rfl
@[simp] theorem doEmitOp_insertQueue (s : State) (op : EmitOp) : (s.doEmitOp op).insertQueue = s.insertQueue := rfl
@[simp] theorem doEmitOp_upPointer (s : State) (op : EmitOp) : (s.doEmitOp op).upPointer = s.upPointer := rfl
@[simp] theorem doEmitOp_deltaCount (s : State) (op : EmitOp) : (s.doEmitOp op).deltaCount = s.deltaCount := rfl
@[simp] theorem doEmitOp_mode (s : State) (op : EmitOp) : (s.doEmitOp op).mode = s.mode := rfl
@[simp] theorem doEmitOp_slots (s : State) (op : EmitOp) : (s.doEmitOp op).slots = s.slots := rfl
@[simp] theorem doEmitOp_spill (s : State) (op : EmitOp) : (s.doEmitOp op).spill = s.spill := rfl
@[simp] theorem doEmitOp_listQueue (s : State) (op : EmitOp) : (s.doEmitOp op).listQueue = s.listQueue := rfl
@[simp] theorem doEmitOp_emissions (s : State) (op : EmitOp) :
    (s.doEmitOp op).emissions = op.apply s.emissions := rfl
@[simp] theorem doEmitOp_feeds (s : State) (op : EmitOp) : (s.doEmitOp op).feeds = s.feeds := rfl
@[simp] theorem doEmitOp_horizon (s : State) (op : EmitOp) : (s.doEmitOp op).horizon = s.horizon := rfl
@[simp] theorem doEmitOp_walk (s : State) (op : EmitOp) : (s.doEmitOp op).walk = s.walk := rfl
@[simp] theorem doEmitOp_clock (s : State) (op : EmitOp) : (s.doEmitOp op).clock = s.clock := rfl
@[simp] theorem doEmitOp_injector (s : State) (op : EmitOp) : (s.doEmitOp op).injector = s.injector := rfl
@[simp] theorem doEmitOp_products (s : State) (op : EmitOp) : (s.doEmitOp op).products = s.products := rfl
@[simp] theorem doEmitOp_policy (s : State) (op : EmitOp) : (s.doEmitOp op).policy = s.policy := rfl
@[simp] theorem doEmitOp_cu (s : State) (op : EmitOp) : (s.doEmitOp op).cu = s.cu := rfl
@[simp] theorem doEmitOp_notices (s : State) (op : EmitOp) : (s.doEmitOp op).notices = s.notices := rfl
@[simp] theorem doEmitOp_mirror (s : State) (op : EmitOp) :
    (s.doEmitOp op).mirror = s.mirror.note (.emitOp op) := rfl
@[simp] theorem doEmitOp_resetCause (s : State) (op : EmitOp) : (s.doEmitOp op).resetCause = s.resetCause := rfl
@[simp] theorem doEmitOp_draws (s : State) (op : EmitOp) : (s.doEmitOp op).draws = s.draws := rfl

@[simp] theorem onPort_pending (s : State) (l : Line) (f : Port → Port) : (s.onPort l f).pending = s.pending := rfl
@[simp] theorem onPort_station (s : State) (l : Line) (f : Port → Port) :
    (s.onPort l f).station = if l = .station then f s.station else s.station := rfl
@[simp] theorem onPort_centre (s : State) (l : Line) (f : Port → Port) :
    (s.onPort l f).centre = if l = .centre then f s.centre else s.centre := rfl
@[simp] theorem onPort_upQueue (s : State) (l : Line) (f : Port → Port) : (s.onPort l f).upQueue = s.upQueue := rfl
@[simp] theorem onPort_downQueue (s : State) (l : Line) (f : Port → Port) :
    (s.onPort l f).downQueue = s.downQueue := rfl
@[simp] theorem onPort_insertQueue (s : State) (l : Line) (f : Port → Port) :
    (s.onPort l f).insertQueue = s.insertQueue := rfl
@[simp] theorem onPort_upPointer (s : State) (l : Line) (f : Port → Port) :
    (s.onPort l f).upPointer = s.upPointer := rfl
@[simp] theorem onPort_deltaCount (s : State) (l : Line) (f : Port → Port) :
    (s.onPort l f).deltaCount = s.deltaCount := rfl
@[simp] theorem onPort_mode (s : State) (l : Line) (f : Port → Port) : (s.onPort l f).mode = s.mode := rfl
@[simp] theorem onPort_slots (s : State) (l : Line) (f : Port → Port) : (s.onPort l f).slots = s.slots := rfl
@[simp] theorem onPort_spill (s : State) (l : Line) (f : Port → Port) : (s.onPort l f).spill = s.spill := rfl
@[simp] theorem onPort_listQueue (s : State) (l : Line) (f : Port → Port) :
    (s.onPort l f).listQueue = s.listQueue := rfl
@[simp] theorem onPort_emissions (s : State) (l : Line) (f : Port → Port) :
    (s.onPort l f).emissions = s.emissions := rfl
@[simp] theorem onPort_feeds (s : State) (l : Line) (f : Port → Port) : (s.onPort l f).feeds = s.feeds := rfl
@[simp] theorem onPort_horizon (s : State) (l : Line) (f : Port → Port) : (s.onPort l f).horizon = s.horizon := rfl
@[simp] theorem onPort_walk (s : State) (l : Line) (f : Port → Port) : (s.onPort l f).walk = s.walk := rfl
@[simp] theorem onPort_clock (s : State) (l : Line) (f : Port → Port) : (s.onPort l f).clock = s.clock := rfl
@[simp] theorem onPort_injector (s : State) (l : Line) (f : Port → Port) :
    (s.onPort l f).injector = s.injector := rfl
@[simp] theorem onPort_products (s : State) (l : Line) (f : Port → Port) :
    (s.onPort l f).products = s.products := rfl
@[simp] theorem onPort_policy (s : State) (l : Line) (f : Port → Port) : (s.onPort l f).policy = s.policy := rfl
@[simp] theorem onPort_cu (s : State) (l : Line) (f : Port → Port) : (s.onPort l f).cu = s.cu := rfl
@[simp] theorem onPort_notices (s : State) (l : Line) (f : Port → Port) : (s.onPort l f).notices = s.notices := rfl
@[simp] theorem onPort_mirror (s : State) (l : Line) (f : Port → Port) : (s.onPort l f).mirror = s.mirror := rfl
@[simp] theorem onPort_resetCause (s : State) (l : Line) (f : Port → Port) :
    (s.onPort l f).resetCause = s.resetCause := rfl
@[simp] theorem onPort_draws (s : State) (l : Line) (f : Port → Port) : (s.onPort l f).draws = s.draws := rfl

end Sys2Proof.Machine
end

