-- ==== Sys2Proof/Laws/Ops.lean ====
section
/-! SUPPORT. One lemma for each shared operation, saying what it keeps and what it does: noted writes, notices,
completions, the placing of answers, the end of mirroring, the end of an event, and the answer of a command. -/

namespace Sys2Proof.Machine

/-! ### What the units' own operations keep -/

/-- `t` differs from `s` in the units and in what mirroring and the Pair Link's transmitter use alone; on an
ACTIVE engine the pairing is kept and no answer is lost. The load session is kept. -/
structure Kept (s t : State) : Prop where
  tables : t.tables = s.tables
  road : t.road = s.road
  station : t.station = s.station
  centre : t.centre = s.centre
  straps : t.mirror.straps = s.mirror.straps
  role : t.mirror.role = s.mirror.role
  pairing : s.mirror.role = .active → t.mirror.pairing = s.mirror.pairing
  answers : s.mirror.role = .active → ∀ a, s.holdsAnswer a → t.holdsAnswer a
  session : t.cu.session = s.cu.session

theorem kept_refl (s : State) : Kept s s :=
  ⟨rfl, rfl, rfl, rfl, rfl, rfl, fun _ => rfl, fun _ _ h => h, rfl⟩

theorem kept_trans {s t u : State} (h : Kept s t) (k : Kept t u) : Kept s u :=
  ⟨k.tables.trans h.tables, k.road.trans h.road, k.station.trans h.station, k.centre.trans h.centre,
   k.straps.trans h.straps, k.role.trans h.role,
   fun r => (k.pairing (h.role.trans r)).trans (h.pairing r),
   fun r a ha => k.answers (h.role.trans r) a (h.answers r a ha), k.session.trans h.session⟩

theorem kept_countNotice (c : NoticeClass) (sub : Subject) (s : State) : Kept s (countNotice c sub s) := by
  refine ⟨rfl, rfl, rfl, rfl, ?_, ?_, fun _ => ?_, fun _ _ h => h, rfl⟩ <;>
    (simp only [countNotice, setNotice_mirror]; split <;> simp)

theorem kept_countIf (b : Bool) (c : NoticeClass) (sub : Subject) (s : State) : Kept s (countIf b c sub s) := by
  cases b
  · exact kept_refl s
  · exact kept_countNotice c sub s

theorem kept_complete (f : CommandUnit → CommandUnit) (hf : ∀ u, u.waiting ⊆ (f u).waiting)
    (hs : ∀ u, (f u).session = u.session) (s : State) : Kept s { s with cu := f s.cu } :=
  ⟨rfl, rfl, rfl, rfl, rfl, rfl, fun _ => rfl, fun _ _ h => h.imp id (fun m => hf s.cu m), hs s.cu⟩

theorem waiting_complete (m : Fin 2) (ok : Bool) (n : Nat) (d : Option Detail) (u : CommandUnit) :
    u.waiting ⊆ (u.complete m ok n d).waiting := by
  unfold CommandUnit.complete
  split
  · exact fun a h => List.mem_append_left _ h
  · exact fun a h => h

theorem session_complete (m : Fin 2) (ok : Bool) (n : Nat) (d : Option Detail) (u : CommandUnit) :
    (u.complete m ok n d).session = u.session := by
  unfold CommandUnit.complete
  split <;> rfl

theorem kept_formCompletion (ok : Bool) (n : Nat) (d : Option Detail) (s : State) :
    Kept s (formCompletion ok n d s) :=
  kept_trans (kept_complete _ (waiting_complete s.mirror.straps.member ok n d)
    (session_complete s.mirror.straps.member ok n d) s) (kept_countIf _ _ _ _)

theorem copyBegin_pairing (m : MirrorUnit) : m.copyBegin.pairing = m.pairing := by
  unfold MirrorUnit.copyBegin; split <;> rfl

theorem kept_beginWork (b : Busy) (s : State) : Kept s (beginWork b s) := by
  have h1 : Kept s { s with cu := { s.cu with busy := some { b with begun := true } } } :=
    ⟨rfl, rfl, rfl, rfl, rfl, rfl, fun _ => rfl, fun _ _ h => h, rfl⟩
  unfold beginWork
  dsimp only
  split
  · exact h1
  · split
    · have hp := copyBegin_pairing s.mirror
      exact ⟨rfl, rfl, rfl, rfl, congrArg Pairing.straps hp, congrArg Pairing.role hp, fun _ => hp,
        fun _ _ h => h, rfl⟩
    · exact kept_trans h1 (kept_formCompletion _ _ _ _)
  · exact ⟨rfl, rfl, rfl, rfl, rfl, rfl, fun _ => rfl, fun _ _ h => h, rfl⟩
  · refine ⟨rfl, rfl, rfl, rfl, ?_, ?_, fun hr => ?_, fun _ _ h => h, rfl⟩
    · dsimp only; split <;> rfl
    · dsimp only; split <;> rfl
    · simp [State.isActive, hr]

theorem kept_answerPlaced (a : Answer) (s : State) : Kept s (answerPlaced a s) := by
  unfold answerPlaced
  split
  · exact kept_refl s
  · split
    · split
      · exact kept_refl s
      · exact kept_beginWork _ s
    · exact kept_refl s
  · exact ⟨rfl, rfl, rfl, rfl, rfl, rfl, fun _ => rfl, fun _ _ h => h, rfl⟩

theorem kept_placeAnswer (s : State) : Kept s (placeAnswer s) := by
  unfold placeAnswer
  split
  · exact kept_refl s
  · rename_i a rest hw
    refine kept_trans ?_ (kept_answerPlaced a _)
    refine ⟨rfl, rfl, rfl, rfl, ?_, ?_, fun hr => ?_, fun hr b hb => ?_, rfl⟩
    · dsimp only; split <;> rfl
    · dsimp only; split <;> rfl
    · simp [State.isActive, hr]
    · simp only [State.holdsAnswer, hw, List.mem_cons, State.isActive, hr] at hb ⊢
      simp only [beq_self_eq_true, if_true, List.mem_append, List.mem_singleton, Inserted.answer.injEq]
      tauto

theorem kept_placeAnswers (k : Nat) (s : State) : Kept s (placeAnswers k s) := by
  induction k generalizing s with
  | zero => exact kept_refl s
  | succ k ih =>
    unfold placeAnswers
    split
    · exact kept_trans (kept_placeAnswer s) (ih _)
    · exact kept_refl s

theorem kept_flushAnswers (s : State) : Kept s (flushAnswers s) := kept_placeAnswers _ s

theorem kept_stopMirroring (why : Detail) (report : Bool) (s : State) :
    Kept s (stopMirroring why report s) := by
  have h1 : Kept s { s with mirror := s.mirror.stopped report } :=
    ⟨rfl, rfl, rfl, rfl, rfl, rfl, fun _ => rfl, fun _ _ h => h, rfl⟩
  have h2 := kept_trans h1 (kept_countNotice .mirrorStale (.line .pair) _)
  unfold stopMirroring
  dsimp only
  refine kept_trans ?_ (kept_flushAnswers _)
  split
  · exact kept_trans h2 (kept_formCompletion _ _ _ _)
  · exact h2

theorem kept_placeGroup (ps : List Payload) (s : State) : Kept s (placeGroup ps s) := by
  induction ps generalizing s with
  | nil => exact kept_refl s
  | cons p rest ih =>
    unfold placeGroup
    split
    · refine kept_trans ?_ (ih _)
      exact ⟨rfl, rfl, rfl, rfl, rfl, rfl, fun _ => rfl, fun _ _ h => h, rfl⟩
    · exact kept_stopMirroring _ _ s

theorem kept_closeGroup (s : State) : Kept s (closeGroup s) := by
  refine kept_trans ?_ (kept_placeGroup _ _)
  exact ⟨rfl, rfl, rfl, rfl, rfl, rfl, fun _ => rfl, fun _ _ h => h, rfl⟩

/-! ### The transmitters -/

theorem pump_straps (m : MirrorUnit) : m.pump.straps = m.straps := by
  unfold MirrorUnit.pump; repeat' split
  all_goals rfl

theorem pump_role (m : MirrorUnit) : m.pump.role = m.role := by
  unfold MirrorUnit.pump; repeat' split
  all_goals rfl

theorem pump_pairing (m : MirrorUnit) : m.pump.pairing = m.pairing := by
  unfold MirrorUnit.pump; repeat' split
  all_goals rfl

theorem pump_queue (m : MirrorUnit) : m.pump.queue = m.queue := by
  unfold MirrorUnit.pump; repeat' split
  all_goals rfl

theorem pump_currency (m : MirrorUnit) : m.pump.currency = m.currency := by
  unfold MirrorUnit.pump; repeat' split
  all_goals rfl

theorem pump_copy (m : MirrorUnit) : m.pump.copy = m.copy := by
  unfold MirrorUnit.pump; repeat' split
  all_goals rfl

theorem pump_writes (m : MirrorUnit) : m.pump.writes = m.writes := by
  unfold MirrorUnit.pump; repeat' split
  all_goals rfl

theorem pump_relayList (m : MirrorUnit) : m.pump.relayList = m.relayList := by
  unfold MirrorUnit.pump; repeat' split
  all_goals rfl

/-! ### The end of an event -/

theorem finish_tables (s : State) : (finish s).tables = s.tables := (kept_closeGroup s).tables

theorem finish_road (s : State) : (finish s).road = s.road := (kept_closeGroup s).road

theorem finish_station (s : State) : (finish s).station = s.station.startCredit s.isActive := by
  have k := kept_closeGroup s
  simp only [finish, k.station, State.isActive, k.role]

theorem finish_centre (s : State) : (finish s).centre = s.centre.startCredit s.isActive := by
  have k := kept_closeGroup s
  simp only [finish, k.centre, State.isActive, k.role]

theorem finish_role (s : State) : (finish s).mirror.role = s.mirror.role :=
  (pump_role _).trans (kept_closeGroup s).role

theorem finish_straps (s : State) : (finish s).mirror.straps = s.mirror.straps :=
  (pump_straps _).trans (kept_closeGroup s).straps

theorem finish_pairing {s : State} (h : s.mirror.role = .active) :
    (finish s).mirror.pairing = s.mirror.pairing :=
  (pump_pairing _).trans ((kept_closeGroup s).pairing h)

theorem finish_answers {s : State} (h : s.mirror.role = .active) {a : Answer} (ha : s.holdsAnswer a) :
    (finish s).holdsAnswer a := (kept_closeGroup s).answers h a ha

theorem finish_session (s : State) : (finish s).cu.session = s.cu.session := (kept_closeGroup s).session

/-- An event with no write to mirror ends with its transmitters begun. -/
theorem finish_of_no_writes {s : State} (h : s.mirror.writes = []) : finish s = s.begun := by
  have : closeGroup s = s := by
    simp only [closeGroup, h, List.flatMap_nil, placeGroup]
    obtain ⟨_, _, _, _, _, _, _, _, _, _, _, _, _, _, _, _, _, _, _, _, _, _, m, _, _⟩ := s
    cases m
    simp_all
  simp only [finish, this, State.begun]

/-- The three outcomes of an event are one: the next state. -/
theorem event_next {ready : Bool} {effect : State → State} {s : State} (h : ready = true) :
    event ready effect s = .next (finish (effect s)) := by simp [event, h]

theorem event_idle {ready : Bool} {effect : State → State} {s : State} (h : ready = false) :
    event ready effect s = .next s := by simp [event, h]

/-! ### Noted writes -/

/-- The engine mirrors some table write: it is paired and ACTIVE, and its view is CURRENT or a copy runs. -/
def MirrorUnit.live (m : MirrorUnit) : Bool :=
  m.straps.pair && m.role == .active && (m.currency == .current || m.copy.isSome)

theorem live_of_mirrors {m : MirrorUnit} {w : TableWrite} (h : m.mirrors w = true) : m.live = true := by
  unfold MirrorUnit.mirrors at h
  unfold MirrorUnit.live
  cases hc : m.copy <;> simp_all

/-- `e'` is `e` but for the writes noted for mirroring, and none is where the engine mirrors nothing. -/
def Noted (e e' : State) : Prop :=
  e' = { e with mirror := { e.mirror with writes := e'.mirror.writes } } ∧
    (e.mirror.live = false → e'.mirror.writes = e.mirror.writes)

theorem noted_refl (e : State) : Noted e e := ⟨rfl, fun _ => rfl⟩

theorem calm_live {s : State} : s.calm = true ↔ s.mirror.writes = [] ∧ s.mirror.live = false := by
  simp only [State.calm, MirrorUnit.live, State.isActive, Bool.and_eq_true, List.isEmpty_iff, Bool.not_eq_true']

theorem noted_eq {e e' : State} (h : Noted e e') (hc : e.calm = true) : e' = e := by
  have hl := (calm_live.mp hc).2
  rw [h.1, h.2 hl]

theorem noted_trans {a b c : State} (h : Noted a b) (k : Noted b c) : Noted a c := by
  have hl : b.mirror.live = a.mirror.live := by rw [h.1]; rfl
  refine ⟨?_, fun hf => ?_⟩
  · rw [k.1]
    conv_lhs => rw [h.1]
  · rw [k.2 (hl.trans hf), h.2 hf]

theorem noted_note {a b : State} (h : Noted a b) (w : TableWrite) :
    Noted a { b with mirror := b.mirror.note w } := by
  refine noted_trans h ⟨by rw [← note_eq], fun hl => ?_⟩
  dsimp only
  rw [note_of_not_mirrors]
  by_contra hm
  rw [live_of_mirrors (by simpa using hm)] at hl
  cases hl

theorem noted_noteIf {a b : State} (h : Noted a b) (p : Prop) [Decidable p] (w : TableWrite) :
    Noted a { b with mirror := if p then b.mirror else b.mirror.note w } := by
  split
  · exact h
  · exact noted_note h w

theorem noted_setSlot {a b : State} (h : Noted a b) (n : Nat) (x : Slot) :
    Noted { a with slots := SMap.setD a.slots {} n x } (b.setSlot n x) := by
  have h1 := noted_note (a := { a with slots := SMap.setD a.slots {} n x })
    (b := { b with slots := SMap.setD b.slots {} n x }) ⟨by dsimp only; conv_lhs => rw [h.1], h.2⟩ (.slot n x)
  exact h1

theorem noted_setCase {a b : State} (h : Noted a b) (n : Nat) (c : CaseRecord) :
    Noted { a with slots := SMap.setD a.slots {} n { a.slotAt n with case := some c } } (b.setCase n c) := by
  have hs : b.slotAt n = a.slotAt n := by rw [h.1]; rfl
  unfold State.setCase
  rw [hs]
  exact noted_setSlot h n _

theorem noted_fillSlot {a b : State} (h : Noted a b) (n : Nat) (x : Slot) :
    Noted { a with slots := SMap.setD a.slots {} n x, spill := adjustSpill n (a.caseAt n) x.case a.spill }
      (b.fillSlot n x) := by
  have hc : b.caseAt n = a.caseAt n := by rw [h.1]; rfl
  unfold State.fillSlot
  rw [hc]
  exact noted_note
    (a := { a with slots := SMap.setD a.slots {} n x, spill := adjustSpill n (a.caseAt n) x.case a.spill })
    (b := { b with slots := SMap.setD b.slots {} n x, spill := adjustSpill n (a.caseAt n) x.case b.spill })
    ⟨by dsimp only; conv_lhs => rw [h.1], h.2⟩ (.slot n x)

theorem noted_setFeed {a b : State} (h : Noted a b) (n : Nat) (x : Feed) :
    Noted { a with feeds := SMap.setD a.feeds {} n x } (b.setFeed n x) :=
  noted_noteIf (a := { a with feeds := SMap.setD a.feeds {} n x })
    (b := { b with feeds := SMap.setD b.feeds {} n x }) ⟨by dsimp only; conv_lhs => rw [h.1], h.2⟩ _ _

theorem noted_setHorizon {a b : State} (h : Noted a b) (x : Horizon) :
    Noted { a with horizon := x } (b.setHorizon x) :=
  noted_noteIf (a := { a with horizon := x }) (b := { b with horizon := x })
    ⟨by dsimp only; conv_lhs => rw [h.1], h.2⟩ _ _

theorem noted_setInjector {a b : State} (h : Noted a b) (x : Injector) :
    Noted { a with injector := x } (b.setInjector x) :=
  noted_noteIf (a := { a with injector := x }) (b := { b with injector := x })
    ⟨by dsimp only; conv_lhs => rw [h.1], h.2⟩ _ _

theorem noted_setClock {a b : State} (h : Noted a b) (x : Clock) :
    Noted { a with clock := x } (b.setClock x) :=
  noted_note (a := { a with clock := x }) (b := { b with clock := x })
    ⟨by dsimp only; conv_lhs => rw [h.1], h.2⟩ _

theorem noted_setProduct {a b : State} (h : Noted a b) (n : Nat) (x : Product) :
    Noted { a with products := SMap.setD a.products {} n x } (b.setProduct n x) :=
  noted_note (a := { a with products := SMap.setD a.products {} n x })
    (b := { b with products := SMap.setD b.products {} n x }) ⟨by dsimp only; conv_lhs => rw [h.1], h.2⟩ _

theorem noted_setPolicy {a b : State} (h : Noted a b) (x : Policy) :
    Noted { a with policy := x } (b.setPolicy x) :=
  noted_noteIf (a := { a with policy := x }) (b := { b with policy := x })
    ⟨by dsimp only; conv_lhs => rw [h.1], h.2⟩ _ _

theorem noted_setNotice {a b : State} (h : Noted a b) (c : NoticeClass) (x : NoticeEntry) :
    Noted { a with notices := { a.notices with entries := SMap.setD a.notices.entries {} c.code x } }
      (b.setNotice c x) :=
  noted_noteIf
    (a := { a with notices := { a.notices with entries := SMap.setD a.notices.entries {} c.code x } })
    (b := { b with notices := { b.notices with entries := SMap.setD b.notices.entries {} c.code x } })
    ⟨by dsimp only; conv_lhs => rw [h.1], h.2⟩ _ _

theorem noted_countNotice {a b : State} (h : Noted a b) (c : NoticeClass) (sub : Subject) :
    Noted { a with notices := a.notices.counted c sub } (countNotice c sub b) := by
  have hn : b.noticeAt c = a.noticeAt c := by rw [h.1]; rfl
  unfold countNotice
  rw [hn]
  exact noted_setNotice h c _

theorem noted_countIf {a b : State} (h : Noted a b) (p : Bool) (c : NoticeClass) (sub : Subject) :
    Noted { a with notices := if p then a.notices.counted c sub else a.notices } (countIf p c sub b) := by
  cases p
  · exact h
  · exact noted_countNotice h c sub

theorem noted_doListOp {a b : State} (h : Noted a b) (op : ListOp) :
    Noted { a with listQueue := op.apply a.listQueue } (b.doListOp op) :=
  noted_note (a := { a with listQueue := op.apply a.listQueue })
    (b := { b with listQueue := op.apply b.listQueue }) ⟨by dsimp only; conv_lhs => rw [h.1], h.2⟩ _

theorem noted_doEmitOp {a b : State} (h : Noted a b) (op : EmitOp) :
    Noted { a with emissions := op.apply a.emissions } (b.doEmitOp op) :=
  noted_note (a := { a with emissions := op.apply a.emissions })
    (b := { b with emissions := op.apply b.emissions }) ⟨by dsimp only; conv_lhs => rw [h.1], h.2⟩ _

/-! ### The end of mirroring shows -/

theorem answerPlaced_of_ended (a : Answer) {s : State}
    (h : s.cu.busy.all (fun b => b.begun || b.ended) = true) :
    (answerPlaced a s).mirror = s.mirror ∧
      (answerPlaced a s).cu.busy.all (fun b => b.begun || b.ended) = true ∧
      (answerPlaced a s).notices = s.notices := by
  unfold answerPlaced
  split
  · exact ⟨rfl, h, rfl⟩
  · split
    · rename_i b hb
      rw [hb] at h
      rw [if_pos (by simpa using h)]
      exact ⟨rfl, by rw [hb]; exact h, rfl⟩
    · exact ⟨rfl, h, rfl⟩
  · exact ⟨rfl, rfl, rfl⟩

theorem placeAnswer_of_ended {s : State} (h : s.cu.busy.all (fun b => b.begun || b.ended) = true) :
    (placeAnswer s).mirror.currency = s.mirror.currency ∧ (placeAnswer s).mirror.copy = s.mirror.copy ∧
      (placeAnswer s).mirror.writes = s.mirror.writes ∧
      (placeAnswer s).cu.busy.all (fun b => b.begun || b.ended) = true ∧ (placeAnswer s).notices = s.notices := by
  unfold placeAnswer
  split
  · exact ⟨rfl, rfl, rfl, h, rfl⟩
  · rename_i a rest hw
    obtain ⟨h1, h2, h3⟩ := answerPlaced_of_ended a
      (s := { s with
        cu := { s.cu with waiting := rest }
        insertQueue := if s.isActive then s.insertQueue ++ [.answer a] else s.insertQueue
        mirror := if !s.isActive && s.mirror.linkUp then
                    { s.mirror with relayList := s.mirror.relayList ++ [a] }
                  else s.mirror }) h
    refine ⟨?_, ?_, ?_, h2, h3⟩ <;> (rw [h1]; dsimp only; split <;> rfl)

theorem placeAnswers_of_ended (k : Nat) {s : State} (h : s.cu.busy.all (fun b => b.begun || b.ended) = true) :
    (placeAnswers k s).mirror.currency = s.mirror.currency ∧ (placeAnswers k s).mirror.copy = s.mirror.copy ∧
      (placeAnswers k s).mirror.writes = s.mirror.writes ∧
      (placeAnswers k s).cu.busy.all (fun b => b.begun || b.ended) = true ∧
      (placeAnswers k s).notices = s.notices := by
  induction k generalizing s with
  | zero => exact ⟨rfl, rfl, rfl, h, rfl⟩
  | succ k ih =>
    unfold placeAnswers
    split
    · obtain ⟨h1, h2, h3, h4, h5⟩ := placeAnswer_of_ended h
      obtain ⟨k1, k2, k3, k4, k5⟩ := ih h4
      exact ⟨k1.trans h1, k2.trans h2, k3.trans h3, k4, k5.trans h5⟩
    · exact ⟨rfl, rfl, rfl, h, rfl⟩

theorem countNotice_currency (c : NoticeClass) (sub : Subject) (s : State) :
    (countNotice c sub s).mirror.currency = s.mirror.currency := by
  simp only [countNotice, setNotice_mirror]; split <;> simp

theorem countNotice_copy (c : NoticeClass) (sub : Subject) (s : State) :
    (countNotice c sub s).mirror.copy = s.mirror.copy := by
  simp only [countNotice, setNotice_mirror]; split <;> simp

theorem formCompletion_currency (ok : Bool) (n : Nat) (d : Option Detail) (s : State) :
    (formCompletion ok n d s).mirror.currency = s.mirror.currency := by
  simp only [formCompletion, countIf]
  split
  · exact countNotice_currency _ _ _
  · rfl

theorem copyBegin_currency {m : MirrorUnit} (h : m.currency = .stale) : m.copyBegin.currency = .stale := by
  unfold MirrorUnit.copyBegin; split
  · rfl
  · exact h

theorem beginWork_currency (b : Busy) {s : State} (h : s.mirror.currency = .stale) :
    (beginWork b s).mirror.currency = .stale := by
  unfold beginWork
  dsimp only
  split
  · exact h
  · split
    · exact copyBegin_currency h
    · rw [formCompletion_currency]; exact h
  · exact h
  · dsimp only
    split <;> exact h

theorem answerPlaced_currency (a : Answer) {s : State} (h : s.mirror.currency = .stale) :
    (answerPlaced a s).mirror.currency = .stale := by
  unfold answerPlaced
  split
  · exact h
  · split
    · split
      · exact h
      · exact beginWork_currency _ h
    · exact h
  · exact h

theorem placeAnswer_currency (s : State) (h : s.mirror.currency = .stale) :
    (placeAnswer s).mirror.currency = .stale := by
  unfold placeAnswer
  split
  · exact h
  · refine answerPlaced_currency _ ?_
    dsimp only
    split <;> exact h

theorem placeAnswers_currency (k : Nat) (s : State) (h : s.mirror.currency = .stale) :
    (placeAnswers k s).mirror.currency = .stale := by
  induction k generalizing s with
  | zero => exact h
  | succ k ih =>
    unfold placeAnswers
    split
    · exact ih _ (placeAnswer_currency s h)
    · exact h

theorem formCompletion_copy (ok : Bool) (n : Nat) (d : Option Detail) (s : State) :
    (formCompletion ok n d s).mirror.copy = s.mirror.copy := by
  simp only [formCompletion, countIf]
  split
  · exact countNotice_copy _ _ _
  · rfl

theorem formCompletion_ended (ok : Bool) (n : Nat) (d : Option Detail) (s : State) :
    (formCompletion ok n d s).cu.busy.all (fun b => b.begun || b.ended) = true := by
  simp only [formCompletion, countIf, CommandUnit.complete, CommandUnit.running]
  cases hb : s.cu.busy with
  | none => simp [hb]
  | some b =>
    cases he : b.ended <;> simp [hb, he, Option.filter]

/-- When mirroring was running and has stopped, the view or the copy shows it (R167). -/
theorem stopMirroring_shows (why : Detail) (report : Bool) (s : State)
    (h : s.mirror.currency = .current ∨ s.mirror.copy.isSome = true) :
    ¬((stopMirroring why report s).mirror.currency = s.mirror.currency ∧
      (stopMirroring why report s).mirror.copy = s.mirror.copy) := by
  rintro ⟨h1, h2⟩
  simp only [stopMirroring, flushAnswers] at h1 h2
  cases hk : s.mirror.copy with
  | none =>
    rw [hk] at h1 h
    rw [placeAnswers_currency _ _ (by simp only [countNotice_currency]; rfl)] at h1
    simp [← h1] at h
  | some k =>
    rw [hk] at h2
    rw [(placeAnswers_of_ended _ (formCompletion_ended _ _ _ _)).2.1, formCompletion_copy, countNotice_copy] at h2
    simp [MirrorUnit.stopped] at h2

/-- A group is placed whole at the end of the Mirror Queue, or the queue overflows and mirroring stops
(R165). -/
theorem placeGroup_cases (ps : List Payload) (s : State) :
    (∃ q n, placeGroup ps s = { s with mirror := { s.mirror with queue := s.mirror.queue ++ q, next := n } }) ∨
    (∃ q n, placeGroup ps s =
      stopMirroring .overflow true
        { s with mirror := { s.mirror with queue := s.mirror.queue ++ q, next := n } }) := by
  induction ps generalizing s with
  | nil => exact .inl ⟨[], s.mirror.next, by simp [placeGroup]⟩
  | cons p rest ih =>
    unfold placeGroup
    split
    · rcases ih { s with mirror := s.mirror.enqueue p rest.isEmpty false } with ⟨q, n, h⟩ | ⟨q, n, h⟩
      · exact .inl ⟨_ :: q, n, by rw [h]; simp [MirrorUnit.enqueue]; rfl⟩
      · exact .inr ⟨_ :: q, n, by rw [h]; simp [MirrorUnit.enqueue]; rfl⟩
    · exact .inr ⟨[], s.mirror.next, by simp⟩

/-- What an event leaves whose effect leads to `e` but for the writes it notes (`State.ended`). -/
theorem ended_finish {e e' : State} (h : Noted e e') : e.ended (finish e') := by
  have hs : e.isActive = e'.isActive := by rw [h.1]; rfl
  refine ⟨?_, ?_, ?_, ?_, fun hw => ?_, fun hw hc hk => ?_, fun hc => ?_⟩
  · rw [finish_tables, h.1]; rfl
  · rw [finish_road, h.1]; rfl
  · rw [finish_station, h.1]; rfl
  · rw [finish_centre, h.1]; rfl
  · have hp : e'.mirror.pairing = e.mirror.pairing := by rw [h.1]; rfl
    cases hl : e.mirror.live with
    | false =>
      rw [finish_of_no_writes ((h.2 hl).trans hw)]
      exact (pump_pairing _).trans hp
    | true =>
      have hr : e'.mirror.role = .active := by
        have : e'.mirror.role = e.mirror.role := by rw [h.1]
        simp only [MirrorUnit.live, Bool.and_eq_true, beq_iff_eq] at hl
        exact this.trans hl.1.2
      exact (finish_pairing hr).trans hp
  · cases hl : e.mirror.live with
    | false =>
      rw [finish_of_no_writes ((h.2 hl).trans hw), h.1]
      exact ⟨rfl, pump_relayList _, by rw [State.begun, pump_queue]⟩
    | true =>
      have hrun : e.mirror.currency = .current ∨ e.mirror.copy.isSome = true := by
        simp only [MirrorUnit.live, Bool.and_eq_true, Bool.or_eq_true, beq_iff_eq] at hl
        exact hl.2
      have hcl : closeGroup e' = placeGroup (e'.mirror.writes.flatMap TableWrite.payloads)
          { e with mirror := { e.mirror with writes := [] } } := by
        unfold closeGroup; conv_lhs => rw [h.1]
      rcases placeGroup_cases (e'.mirror.writes.flatMap TableWrite.payloads)
          { e with mirror := { e.mirror with writes := [] } } with ⟨q, n, hg⟩ | ⟨q, n, hg⟩
      · simp only [finish, hcl, hg]
        exact ⟨rfl, pump_relayList _, by rw [pump_queue]; exact List.prefix_append _ _⟩
      · exfalso
        simp only [finish, hcl, hg, pump_currency, pump_copy] at hc hk
        refine stopMirroring_shows .overflow true _ ?_ ⟨hc, hk⟩
        exact hrun
  · have := noted_eq h hc
    subst this
    exact finish_of_no_writes (calm_live.mp hc).1

/-- An event that takes place, with the effect `e` but for noted writes. -/
theorem ends {res : Result} {ready : Bool} {effect : State → State} {s e : State}
    (h : res = event ready effect s) (hr : ready = true) (hn : Noted e (effect s)) :
    ∃ t, res = .next t ∧ e.ended t :=
  ⟨_, h.trans (event_next hr), ended_finish hn⟩

/-! ### The answer of a command -/

/-- The placing of a RESPONSE brings nothing about where no busy command waits to begin (R138). -/
theorem answerPlaced_response (r : Response) {s : State} (h : s.cu.busy.all (fun b => b.begun || b.ended) = true) :
    answerPlaced (.response r) s = s := by
  unfold answerPlaced
  cases hb : s.cu.busy with
  | none => rfl
  | some b =>
    rw [hb] at h
    exact if_pos (by simpa using h)

/-- Where no busy command waits to begin, an ACTIVE engine's Command Unit places what it can (`State.placing`). -/
theorem placeAnswers_active (k : Nat) {s : State} (hr : s.mirror.role = .active)
    (hb : s.cu.busy.all (fun b => b.begun || b.ended) = true) (hk : s.cu.waiting.length ≤ k) :
    placeAnswers k s = s.placing := by
  have hnil : s.cu.waiting = [] → s = s.placing := by
    intro hw
    unfold State.placing
    simp only [hw, List.take_nil, List.drop_nil, List.any_nil, List.map_nil, List.append_nil, Bool.false_eq_true,
      if_false]
    rw [← hw]
  induction k generalizing s with
  | zero => exact hnil (by simpa using hk)
  | succ k ih =>
    unfold placeAnswers
    cases hw : s.cu.waiting with
    | nil => simpa using hnil hw
    | cons a rest =>
      by_cases hl : s.insertQueue.length < 64
      · have hp : placeAnswer s =
            { s with
              cu := { s.cu with
                waiting := rest, busy := if (a matches .completion _) then none else s.cu.busy }
              insertQueue := s.insertQueue ++ [.answer a] } := by
          unfold placeAnswer
          simp only [hw, State.isActive, hr, beq_self_eq_true, if_true, Bool.not_true, Bool.false_and,
            Bool.false_eq_true, if_false]
          cases a with
          | summary r => rfl
          | completion r => rfl
          | response r =>
            exact answerPlaced_response r
              (s := { s with cu := { s.cu with waiting := rest }, insertQueue := s.insertQueue ++ [.answer _] }) hb
        have hroom : 64 - s.insertQueue.length = (64 - (s.insertQueue.length + 1)) + 1 := by omega
        rw [if_pos (by simp [State.hasPlace, State.isActive, hr, hl]), hp]
        have hn : rest.length ≤ k := by simp [hw] at hk; omega
        refine (ih (by exact hr) ?_ hn ?_).trans ?_
        · dsimp only; split
          · rfl
          · exact hb
        · intro h0
          dsimp only at h0
          subst h0
          unfold State.placing
          simp
        · unfold State.placing
          simp only [hw, hroom, List.length_append, List.length_singleton, List.take_succ_cons, List.drop_succ_cons,
            List.any_cons, List.map_cons, List.append_assoc, List.singleton_append]
          cases a <;> simp
      · have hroom : 64 - s.insertQueue.length = 0 := by omega
        rw [if_neg (by simp [State.hasPlace, State.isActive, hr]; omega)]
        unfold State.placing
        simp only [hroom, List.take_zero, List.drop_zero, List.any_nil, List.map_nil, List.append_nil,
          Bool.false_eq_true, if_false]

/-- The Command Unit of an ACTIVE engine places what it has formed as far as there is room (R136). -/
theorem flushAnswers_active {s : State} (hr : s.mirror.role = .active)
    (hb : s.cu.busy.all (fun b => b.begun || b.ended) = true) : flushAnswers s = s.placing :=
  placeAnswers_active _ hr hb (by omega)

/-- An answer that finds room, with nothing before it, stands at the end of the Insert Queue (R136). -/
theorem placing_at_once {s : State} {a : Answer} (h : s.placesAtOnce = true) (ha : ∀ r, a ≠ .completion r) :
    (s.withAnswers [a]).placing = { s with insertQueue := s.insertQueue ++ [.answer a] } := by
  simp only [State.placesAtOnce, Bool.and_eq_true, List.isEmpty_iff, decide_eq_true_eq] at h
  obtain ⟨⟨hw, hl⟩, -⟩ := h
  have hroom : 64 - s.insertQueue.length = (64 - (s.insertQueue.length + 1)) + 1 := by omega
  unfold State.placing State.withAnswers
  simp only [hw, List.nil_append, hroom, List.take_succ_cons, List.take_nil, List.drop_succ_cons, List.drop_nil,
    List.any_cons, List.any_nil, Bool.or_false, List.map_cons, List.map_nil]
  cases a with
  | completion r => exact absurd rfl (ha r)
  | _ => simp only [Bool.false_eq_true, if_false]; rw [← hw]

/-- What the execution of a command on an ACTIVE engine leaves, where its own effect leads to `e` but for the
writes it notes (`State.answeredWith`). -/
theorem answeredWith_respond {e e' : State} {c : Control} {sum : Option Summary} {v : Verdict}
    (hr : e.mirror.role = .active) (h : Noted e e') :
    e.answeredWith (sum.toList.map .summary ++ [e.response c v]) (finish (respond c ⟨e', sum, v⟩)) := by
  have hr' : e'.mirror.role = .active := by rw [h.1]; exact hr
  set as : List Answer := sum.toList.map .summary ++ [e.response c v] with has
  set w : State := e'.withAnswers as with hwdef
  have hf : respond c ⟨e', sum, v⟩ = flushAnswers w := by
    have : e'.mirror.straps = e.mirror.straps := by rw [h.1]
    simp only [respond, hwdef, has, State.withAnswers, State.response, this, List.append_assoc]
  have k := kept_flushAnswers w
  have hwr : w.mirror.role = .active := hr'
  have hfr : (flushAnswers w).mirror.role = .active := k.role.trans hwr
  have ha : (flushAnswers w).isActive = e.isActive := by simp [State.isActive, hfr, hr]
  have hcu : e'.cu = e.cu := by rw [h.1]
  rw [hf]
  refine ⟨?_, ?_, ?_, ?_, fun a hm => ?_, ?_, fun hw => ?_, fun hb => ?_⟩
  · rw [finish_tables, k.tables, hwdef, h.1]; rfl
  · rw [finish_road, k.road, hwdef, h.1]; rfl
  · rw [finish_station, k.station, ha, hwdef, h.1]; rfl
  · rw [finish_centre, k.centre, ha, hwdef, h.1]; rfl
  · exact finish_answers hfr (k.answers hwr _ (.inr (List.mem_append_right _ hm)))
  · rw [finish_session, k.session]
    exact (show w.cu.session = e'.cu.session from rfl).trans (congrArg CommandUnit.session hcu)
  · rw [finish_pairing hfr, k.pairing hwr, hwdef, h.1]; rfl
  · have hn : Noted (e.withAnswers as).placing w.placing := by
      refine ⟨?_, h.2⟩
      rw [hwdef]
      conv_lhs => rw [h.1]
      rfl
    rw [flushAnswers_active hwr (by rw [hwdef]; simpa [State.withAnswers, hcu] using hb)]
    obtain ⟨-, -, -, -, -, hu, hc⟩ := ended_finish hn
    exact ⟨hu, hc⟩

/-- The same, of a command that forms no SUMMARY (`State.answered`). -/
theorem answered_respond {e e' : State} {c : Control} {v : Verdict} (hr : e.mirror.role = .active)
    (h : Noted e e') : e.answered c v (finish (respond c ⟨e', none, v⟩)) := answeredWith_respond hr h

/-- A STANDBY's Command Unit places nothing in the Insert Queue (R170). -/
theorem placeAnswers_insertQueue (k : Nat) {s : State} (hr : s.mirror.role = .standby) :
    (placeAnswers k s).insertQueue = s.insertQueue := by
  have hw : ∀ b (x : State), (beginWork b x).insertQueue = x.insertQueue := by
    intro b x
    unfold beginWork
    dsimp only
    split
    · rfl
    · split
      · rfl
      · rfl
    · rfl
    · rfl
  have hp : ∀ a (x : State), (answerPlaced a x).insertQueue = x.insertQueue := by
    intro a x
    unfold answerPlaced
    split
    · rfl
    · split
      · split
        · rfl
        · exact hw _ x
      · rfl
    · rfl
  induction k generalizing s with
  | zero => rfl
  | succ k ih =>
    unfold placeAnswers
    split
    · have h1 : (placeAnswer s).mirror.role = .standby := (kept_placeAnswer s).role.trans hr
      rw [ih h1]
      unfold placeAnswer
      split
      · rfl
      · rw [hp]
        simp [State.isActive, hr]
    · rfl

theorem placeGroup_insertQueue (ps : List Payload) {s : State} (hr : s.mirror.role = .standby) :
    (placeGroup ps s).insertQueue = s.insertQueue := by
  induction ps generalizing s with
  | nil => rfl
  | cons p rest ih =>
    unfold placeGroup
    split
    · exact ih hr
    · unfold stopMirroring flushAnswers
      rw [placeAnswers_insertQueue]
      · split <;> rfl
      · split
        · exact (kept_formCompletion _ _ _ _).role.trans ((kept_countNotice _ _ _).role.trans hr)
        · exact (kept_countNotice _ _ _).role.trans hr

/-- What the execution of a command on a STANDBY leaves (`State.relayed`). -/
theorem relayed_respond {e : State} {c : Control} {v : Verdict} (hr : e.mirror.role = .standby) :
    e.relayed c v (finish (respond c ⟨e, none, v⟩)) := by
  set w : State := e.withAnswers [e.response c v] with hwdef
  have hf : respond c ⟨e, none, v⟩ = flushAnswers w := by
    simp only [respond, hwdef, State.withAnswers, State.response, Option.toList, List.map_nil, List.append_nil]
  have k := kept_flushAnswers w
  have hfr : (flushAnswers w).mirror.role = .standby := k.role.trans hr
  have hact : (flushAnswers w).isActive = false := by simp [State.isActive, hfr]
  have hidle : ∀ p : Port, p.startCredit false = p := by
    intro p
    simp [Port.startCredit, Port.creditWanted]
  rw [hf]
  refine ⟨?_, ?_, ?_, ?_, ?_, ?_, fun hw hb => ?_, fun hw hq hb => ?_⟩
  · rw [finish_tables, k.tables]; rfl
  · rw [finish_road, k.road]; rfl
  · rw [finish_station, k.station, hact, hidle]; rfl
  · rw [finish_centre, k.centre, hact, hidle]; rfl
  · exact (placeGroup_insertQueue _ (by exact hfr)).trans (placeAnswers_insertQueue _ hr)
  · rw [finish_session, k.session]; rfl
  · have hn := placeAnswers_of_ended (w.cu.waiting.length + 2) (s := w) hb
    exact (congrArg State.notices (finish_of_no_writes (hn.2.2.1.trans hw))).trans hn.2.2.2.2
  · have hp : flushAnswers w = e.handedOver (e.response c v) := by
      have hcu : ({ e.cu with waiting := [] } : CommandUnit) = e.cu := by rw [← hq]
      have hap : ∀ x : State, x.cu.busy = e.cu.busy → answerPlaced (e.response c v) x = x := by
        intro x hx
        exact answerPlaced_response _ (by rw [hx]; exact hb)
      unfold flushAnswers placeAnswers State.handedOver
      simp only [hwdef, State.withAnswers, State.hasPlace, State.isActive, hr, hq]
      by_cases hl : e.mirror.linkUp = true
      · by_cases h8 : e.mirror.relayList.length < 8
        · simp [hl, h8, hq, placeAnswer, State.isActive, hr, hap, placeAnswers, hcu]
        · simp [hl, h8]
      · simp only [Bool.not_eq_true] at hl
        simp [hl, hq, placeAnswer, State.isActive, hr, hap, placeAnswers, hcu]
    rw [hp]
    refine finish_of_no_writes ?_
    unfold State.handedOver
    split <;> [split; skip] <;> exact hw

/-! ### Commands -/

/-- A command in hand is executed on the state from which its record has been taken; `e` is its effect but for
noted writes. -/
theorem answers {code : Byte} {adm : Admission} {busy : Bool} {own : Control → State → Executed} {s e e' : State}
    {c : Control} {v : Verdict} (h : s.inHand code c) (hadm : adm.fault true = none)
    (hb : busy = true → s.cu.busy = none)
    (hx : own c (endSession (code != codeProductData) (takeControl s)) = ⟨e', none, v⟩)
    (hn : Noted e e') (hr : e.mirror.role = .active) :
    ∃ t, runCommand code adm busy own s = .next t ∧ e.answered c v t := by
  obtain ⟨h1, h2, h3, h4, h5, h6⟩ := h
  have hready : s.commandReady code c = true := by simp [State.commandReady, h2, h3, h5]
  have hf : commonFault adm busy c (endSession (code != codeProductData) (takeControl s)) = none := by
    have ha : (endSession (code != codeProductData) (takeControl s)).isActive = true := h6
    have hbb : (busy && (endSession (code != codeProductData) (takeControl s)).cu.busy.isSome) = false := by
      cases busy with
      | false => rfl
      | true =>
        have : (endSession (code != codeProductData) (takeControl s)).cu.busy = s.cu.busy := rfl
        rw [this, hb rfl]; rfl
    rw [commonFault, if_neg (by omega), ha, hadm]
    simp only [hbb, Bool.false_eq_true, if_false]
  refine ⟨_, ?_, answered_respond (e := e) (e' := e') hr hn⟩
  simp only [runCommand, h1]
  rw [event_next hready, executed, hf, hx]

/-- Taking a command other than PRODUCT DATA. -/
theorem taken_eq {s : State} (h : s.isActive = true) : endSession true (takeControl s) = s.taken := by
  simp only [endSession, takeControl, h, if_true, State.taken, Port.take, bump32, satAdd, max32]

/-- The same, for a command that ends a load session. -/
theorem answers_taken {code : Byte} {adm : Admission} {busy : Bool} {own : Control → State → Executed}
    {s e e' : State} {c : Control} {v : Verdict} (h : s.inHand code c) (hcode : code ≠ codeProductData)
    (hadm : adm.fault true = none) (hb : busy = true → s.cu.busy = none) (hx : own c s.taken = ⟨e', none, v⟩)
    (hn : Noted e e') (hr : e.mirror.role = .active) :
    ∃ t, runCommand code adm busy own s = .next t ∧ e.answered c v t := by
  refine answers h hadm hb ?_ hn hr
  rw [show (code != codeProductData) = true by simpa using hcode, taken_eq h.2.2.2.2.2]
  exact hx

/-! ### Noted writes to cases and lists -/

theorem noted_withCase {a b : State} (h : Noted a b) (n : Nat) (c : CaseRecord) :
    Noted (a.withCase n c) (b.setCase n c) := noted_setCase h n c

theorem noted_removeEmission {a b : State} (h : Noted a b) (x : Handle) (k : EmitKind) :
    Noted (a.released x k) (removeEmission x k b) := by
  have he : b.emission x k = a.emission x k := by rw [h.1]; rfl
  unfold removeEmission State.released
  rw [he]
  cases hf : a.emission x k with
  | none =>
    have hid : a.emissions.eraseP (fun e => e.handle = x ∧ e.kind = k) = a.emissions := by
      apply List.eraseP_of_forall_not
      intro e hm hp
      have := List.find?_eq_none.mp hf e hm
      simp_all
    rw [hid]
    simpa using h
  | some e =>
    have hx : e.handle = x ∧ e.kind = k := by
      have := List.find?_some hf
      simpa using this
    have hn := noted_doEmitOp (a := { a with centre := { a.centre with tx := a.centre.tx.detach x k } })
      (b := { b with centre := { b.centre with tx := b.centre.tx.detach x k } })
      ⟨by dsimp only; conv_lhs => rw [h.1], h.2⟩ (.remove e)
    simp only [EmitOp.apply, hx.1, hx.2] at hn
    exact hn

theorem noted_freeSlot {a b : State} (h : Noted a b) (n : Nat) : Noted (a.freed n) (freeSlot n b) := by
  have hh : b.handleAt n = a.handleAt n := by rw [h.1]; rfl
  have hs : b.slotAt n = a.slotAt n := by rw [h.1]; rfl
  unfold freeSlot State.freed
  rw [hh, hs]
  exact noted_removeEmission (noted_removeEmission (noted_fillSlot h n _) _ _) _ _

theorem noted_placeOffer {a b : State} (h : Noted a b) (x : Handle) :
    Noted (a.withOfferEntry x) (placeOffer x b) := by
  have he : b.emission x .offer = a.emission x .offer := by rw [h.1]; rfl
  have ht : b.emitting x .offer = a.emitting x .offer := by rw [h.1]; rfl
  unfold placeOffer State.withOfferEntry
  rw [he, ht]
  cases hf : a.emission x .offer with
  | none => exact noted_doEmitOp h (.append ⟨x, .offer, false⟩)
  | some e =>
    have hx : e.handle = x ∧ e.kind = .offer := by
      have := List.find?_some hf
      simpa using this
    cases a.emitting x .offer with
    | false => simpa using h
    | true =>
      have hn := noted_doEmitOp h (.setMark { e with renewed := true })
      have hm : (EmitOp.setMark { e with renewed := true }).apply a.emissions =
          a.emissions.map
            (fun e => if e.handle = x ∧ e.kind = .offer then { e with renewed := true } else e) := by
        simp only [EmitOp.apply, hx.1, hx.2]
      rw [hm] at hn
      simp only [Option.isNone_some, Bool.false_eq_true, if_false, if_true]
      exact hn

theorem noted_anchorCase {a b : State} (h : Noted a b) (n : Nat) (c : CaseRecord) :
    Noted (a.withAnchored n c) (anchorCase n c b) := by
  have hh : b.handleAt n = a.handleAt n := by rw [h.1]; rfl
  have hp : anchored b.productAt b.policy c = anchored a.productAt a.policy c := by
    have h1 : b.productAt = a.productAt := by rw [h.1]; rfl
    have h2 : b.policy = a.policy := by rw [h.1]
    rw [h1, h2]
  unfold anchorCase State.withAnchored
  dsimp only
  rw [hh, hp]
  split
  · exact noted_countNotice (noted_withCase h n _) _ _
  · exact noted_placeOffer (noted_withCase h n _) _

theorem noted_settleCase {a b : State} (h : Noted a b) (n : Nat) (c : CaseRecord) :
    Noted (a.withSettled n c) (settleCase n c b) := by
  have hh : b.handleAt n = a.handleAt n := by rw [h.1]; rfl
  have hc : b.clock = a.clock := by rw [h.1]
  unfold settleCase State.withSettled
  rw [hh, hc]
  exact noted_countNotice (noted_doEmitOp (noted_withCase h n _) _) _ _

/-! ### The walk, H and Vs -/

theorem trigger_walk (s : State) : (trigger s).walk = s.triggered := by
  by_cases h : s.isActive = true
  · cases hw : s.walk <;> simp [trigger, State.triggered, h, hw]
  · simp [trigger, State.triggered, h]

theorem noted_walk {a b : State} (h : Noted a b) (w : Option Walk) :
    Noted { a with walk := w } { b with walk := w } :=
  ⟨by dsimp only; conv_lhs => rw [h.1], h.2⟩

theorem noted_triggerIf {a b : State} (h : Noted a b) (p : Bool) :
    Noted { a with walk := if p then a.triggered else a.walk } (triggerIf p b) := by
  have h1 : b.triggered = a.triggered := by rw [h.1]; rfl
  have h2 : b.walk = a.walk := by rw [h.1]
  unfold triggerIf
  rw [trigger_walk, h1, h2]
  exact noted_walk h _

theorem noted_recompute {a b : State} (h : Noted a b) : Noted a.recomputed (recompute b) := by
  have hm : b.minima = a.minima := by rw [h.1]; rfl
  have hh : b.horizon = a.horizon := by rw [h.1]
  have := noted_triggerIf (noted_setHorizon h a.minima)
    (decide (a.horizon.h < a.minima.h) || decide (a.horizon.vs < a.minima.vs))
  simp only [Bool.or_eq_true, decide_eq_true_eq] at this
  unfold recompute State.recomputed
  rw [hm, hh]
  exact this

/-! ### A STANDBY: it mirrors nothing, and hands its answers over -/

theorem role_of_standby {s : State} (h : s.isActive = false) : s.mirror.role = .standby := by
  cases hr : s.mirror.role <;> simp [State.isActive, hr] at h ⊢

theorem note_of_standby {m : MirrorUnit} (h : m.role = .standby) (w : TableWrite) : m.note w = m := by
  unfold MirrorUnit.note MirrorUnit.mirrors
  simp [h]

theorem countNotice_of_standby {s : State} (h : s.mirror.role = .standby) (c : NoticeClass) (sub : Subject) :
    countNotice c sub s = { s with notices := s.notices.counted c sub } := by
  unfold countNotice State.setNotice
  simp only [note_of_standby h, ite_self]
  rfl

theorem flushAnswers_of_none {s : State} (h : s.cu.waiting = []) : flushAnswers s = s := by
  unfold flushAnswers placeAnswers
  simp [h]

/-- With the Pair Link DOWN a STANDBY whose busy command has begun or ended loses every answer that waits, and a
COMPLETION among them ends that command (R140, R170). -/
theorem placeAnswers_lost (k : Nat) {s : State} (hr : s.mirror.role = .standby) (hl : s.mirror.linkUp = false)
    (hb : s.cu.busy.all (fun b => b.begun || b.ended) = true) (hk : s.cu.waiting.length ≤ k) :
    placeAnswers k s =
      { s with
        cu := { s.cu with
          waiting := []
          busy := if s.cu.waiting.any (fun a => a matches .completion _) then none else s.cu.busy } } := by
  induction k generalizing s with
  | zero =>
    have hw : s.cu.waiting = [] := by simpa using hk
    unfold placeAnswers
    simp [hw]
    rw [← hw]
  | succ k ih =>
    unfold placeAnswers
    cases hw : s.cu.waiting with
    | nil => simp; rw [← hw]
    | cons a rest =>
      have hp : placeAnswer s = answerPlaced a { s with cu := { s.cu with waiting := rest } } := by
        unfold placeAnswer
        rw [hw]
        simp [State.isActive, hr, hl]
      have hn : rest.length ≤ k := by simp [hw] at hk; omega
      rw [if_pos (by simp [State.hasPlace, State.isActive, hr, hl]), hp]
      cases a with
      | summary r => exact (ih (s := { s with cu := { s.cu with waiting := rest } }) hr hl hb hn).trans (by simp)
      | response r =>
        rw [answerPlaced_response r (s := { s with cu := { s.cu with waiting := rest } }) hb]
        exact (ih (s := { s with cu := { s.cu with waiting := rest } }) hr hl hb hn).trans (by simp)
      | completion r =>
        exact (ih (s := { s with cu := { s.cu with waiting := rest, busy := none } }) hr hl rfl hn).trans (by simp)

/-- With the Pair Link DOWN the answers of a STANDBY that wait are lost (R170). -/
theorem flushAnswers_lost {s : State} (hr : s.mirror.role = .standby) (hl : s.mirror.linkUp = false)
    (hb : s.cu.busy.all (fun b => b.begun || b.ended) = true) :
    flushAnswers s =
      { s with
        cu := { s.cu with
          waiting := []
          busy := if s.cu.waiting.any (fun a => a matches .completion _) then none else s.cu.busy } } :=
  placeAnswers_lost _ hr hl hb (by omega)

/-- An event whose effect leaves no write to be mirrored leaves just that, with what is due begun. -/
theorem event_begun {ready : Bool} {effect : State → State} {s e : State} (h : ready = true) (he : effect s = e)
    (hw : e.mirror.writes = []) : event ready effect s = .next e.begun := by
  rw [event_next h, he, finish_of_no_writes hw]

/-- What a failed takeover leaves on a STANDBY that holds no other answer (`State.takeoverFailed`). -/
theorem flush_failTakeover {s : State} {b : Busy} (hr : s.mirror.role = .standby) (hw : s.cu.waiting = [])
    (hb : s.cu.busy = some b) (he : b.ended = false) (why : Detail) :
    flushAnswers (failTakeover why s) = s.takeoverFailed b why := by
  have hrun : s.cu.running = some b := by simp [CommandUnit.running, hb, Option.filter, he]
  have h1 : failTakeover why s =
      { s with
        cu := ⟨[.completion ⟨b.tag, b.work.code, s.mirror.straps.member, false,
                Config.failedTakeoverCount s.draws, some why⟩], some { b with ended := true }, s.cu.session⟩
        notices := s.notices.counted .busyDoneFail (.tag b.tag)
        draws := s.draws + 1 } := by
    unfold failTakeover formCompletion CommandUnit.complete
    simp only [hrun, countIf, Bool.not_false, Option.isSome_some, Bool.and_self, if_true, Option.map_some,
      Option.getD_some, hw, List.nil_append]
    rw [countNotice_of_standby (by exact hr)]
  rw [h1]
  unfold flushAnswers placeAnswers State.takeoverFailed State.handedOver
  simp only [State.hasPlace, State.isActive, hr]
  by_cases hl : s.mirror.linkUp = true
  · by_cases h8 : s.mirror.relayList.length < 8
    · simp [hl, h8, hw, placeAnswer, State.isActive, hr, answerPlaced, placeAnswers]
    · simp [hl, h8]
  · simp only [Bool.not_eq_true] at hl
    simp [hl, hw, placeAnswer, State.isActive, hr, answerPlaced, placeAnswers]

theorem takeoverFailed_writes (b : Busy) (why : Detail) (s : State) :
    (s.takeoverFailed b why).mirror.writes = s.mirror.writes := by
  unfold State.takeoverFailed State.handedOver
  dsimp only
  split <;> [split; skip] <;> rfl

end Sys2Proof.Machine
end

