-- ==== Sys2Proof/Laws/Sparse.lean ====
section
/-! SUPPORT. The laws of the indexed tables: a read after a write, and that every operation keeps the
canonical form. -/

namespace Sys2Proof.Machine

variable {α : Type}

@[simp] theorem look_put_same (m : SMap α) (k : Nat) (v : α) : SMap.look (SMap.put m k v) k = some v := by
  induction m with
  | nil => simp [SMap.put, SMap.look]
  | cons e rest ih =>
    obtain ⟨j, w⟩ := e
    simp only [SMap.put]
    split_ifs with h1 h2
    · simp [SMap.look]
    · simp [SMap.look]
    · simp [SMap.look, ih, Ne.symm h2]

theorem look_put_other (m : SMap α) {k j : Nat} (v : α) (h : j ≠ k) :
    SMap.look (SMap.put m k v) j = SMap.look m j := by
  induction m with
  | nil => simp [SMap.put, SMap.look, Ne.symm h]
  | cons e rest ih =>
    obtain ⟨i, w⟩ := e
    simp only [SMap.put]
    split_ifs with h1 h2
    · simp [SMap.look, Ne.symm h]
    · subst h2; simp [SMap.look, Ne.symm h]
    · simp [SMap.look, ih]

@[simp] theorem look_del_same (m : SMap α) (k : Nat) : SMap.look (SMap.del m k) k = none := by
  induction m with
  | nil => rfl
  | cons e rest ih =>
    obtain ⟨j, w⟩ := e
    simp only [SMap.del, List.filter_cons] at *
    by_cases h : j = k
    · simp [h, ih]
    · simp [h, SMap.look, ih]

theorem look_del_other (m : SMap α) {k j : Nat} (h : j ≠ k) :
    SMap.look (SMap.del m k) j = SMap.look m j := by
  induction m with
  | nil => rfl
  | cons e rest ih =>
    obtain ⟨i, w⟩ := e
    simp only [SMap.del, List.filter_cons] at *
    by_cases hi : i = k
    · subst hi; simp [SMap.look, ih, Ne.symm h]
    · simp [hi, SMap.look, ih]


/-- A read after a write to the same place gives what was written. -/
@[simp] theorem getD_setD_same [DecidableEq α] (m : SMap α) (d : α) (k : Nat) (v : α) :
    SMap.getD (SMap.setD m d k v) d k = v := by
  unfold SMap.getD SMap.setD
  split_ifs with h
  · simp [h]
  · simp

/-- A write leaves every other place as it was. -/
theorem getD_setD_other [DecidableEq α] (m : SMap α) (d : α) {k j : Nat} (v : α) (h : j ≠ k) :
    SMap.getD (SMap.setD m d k v) d j = SMap.getD m d j := by
  unfold SMap.getD SMap.setD
  split_ifs
  · rw [look_del_other m h]
  · rw [look_put_other m v h]

theorem mem_put {m : SMap α} {k : Nat} {v : α} {e : Nat × α} (h : e ∈ SMap.put m k v) :
    e = (k, v) ∨ e ∈ m := by
  induction m with
  | nil => simpa [SMap.put] using h
  | cons a rest ih =>
    obtain ⟨j, w⟩ := a
    simp only [SMap.put] at h
    split_ifs at h with h1 h2
    · simpa using h
    · rcases List.mem_cons.mp h with h | h
      · exact .inl h
      · exact .inr (List.mem_cons_of_mem _ h)
    · rcases List.mem_cons.mp h with h | h
      · exact .inr (h ▸ List.mem_cons_self)
      · rcases ih h with h | h
        · exact .inl h
        · exact .inr (List.mem_cons_of_mem _ h)

theorem sorted_put {m : SMap α} (h : SMap.sorted m) (k : Nat) (v : α) : SMap.sorted (SMap.put m k v) := by
  induction m with
  | nil => simp [SMap.put, SMap.sorted]
  | cons a rest ih =>
    obtain ⟨j, w⟩ := a
    have hr := List.pairwise_cons.mp h
    simp only [SMap.put]
    split_ifs with h1 h2
    · refine List.pairwise_cons.mpr ⟨fun e he => ?_, h⟩
      rcases List.mem_cons.mp he with he | he
      · exact he ▸ h1
      · exact lt_trans h1 (hr.1 e he)
    · subst h2; exact List.pairwise_cons.mpr ⟨hr.1, hr.2⟩
    · refine List.pairwise_cons.mpr ⟨fun e he => ?_, ih hr.2⟩
      rcases mem_put he with he | he
      · subst he; simp; omega
      · exact hr.1 e he

theorem sorted_del {m : SMap α} (h : SMap.sorted m) (k : Nat) : SMap.sorted (SMap.del m k) :=
  List.Pairwise.filter _ h

/-- Writing a place in range keeps the canonical form. -/
theorem wf_setD [DecidableEq α] {m : SMap α} {d : α} {n : Nat} (h : SMap.wf m d n) {k : Nat} (hk : k < n) (v : α) :
    SMap.wf (SMap.setD m d k v) d n := by
  unfold SMap.setD
  split_ifs with hv
  · exact ⟨sorted_del h.1 k, fun e he => h.2 e (List.mem_filter.mp he).1⟩
  · refine ⟨sorted_put h.1 k v, fun e he => ?_⟩
    rcases mem_put he with he | he
    · subst he; exact ⟨hk, hv⟩
    · exact h.2 e he

/-- A listed place of a sorted table is what its key looks up. -/
theorem look_of_mem {m : SMap α} (h : SMap.sorted m) {e : Nat × α} (he : e ∈ m) :
    SMap.look m e.1 = some e.2 := by
  induction m with
  | nil => cases he
  | cons a rest ih =>
    obtain ⟨j, w⟩ := a
    have hr := List.pairwise_cons.mp h
    rcases List.mem_cons.mp he with he | he
    · subst he; simp [SMap.look]
    · have hlt := hr.1 e he
      simp only [SMap.look]
      rw [if_neg (by simp at hlt; omega)]
      exact ih hr.2 he

/-- What a key looks up is listed under it. -/
theorem mem_of_look {m : SMap α} {k : Nat} {v : α} (h : SMap.look m k = some v) : (k, v) ∈ m := by
  induction m with
  | nil => cases h
  | cons a rest ih =>
    obtain ⟨j, w⟩ := a
    simp only [SMap.look] at h
    split_ifs at h with hj
    · cases h; subst hj; exact List.mem_cons_self
    · exact List.mem_cons_of_mem _ (ih h)

end Sys2Proof.Machine
end

