-- ==== Sys2Proof/Machine/Records.lean ====
section
/-! DEFINITION. What the engine's transmissions look like on the wire, as far as chapter 11 lays it out: credit
frames and forwarded records (11.2), OFFER records (11.6), and the messages of the Pair Link that carry no table
item (11.8). Of every other record the engine makes, chapter 11 gives the kind code alone (log entry 24). -/

namespace Sys2Proof.Machine

/-- The kind codes of the records the engine makes (11.2). -/
def kindResponse : Byte := 0x20#8
def kindCompletion : Byte := 0x21#8
def kindNotice : Byte := 0x22#8
def kindSummary : Byte := 0x23#8
def kindOffer : Byte := 0x24#8
def kindSettlement : Byte := 0x25#8
def kindDelta : Byte := 0x30#8

/-- The kind code of a record of the Insert Queue (11.2). -/
def Inserted.kind : Inserted → Byte
  | .answer (.summary _) => kindSummary
  | .answer (.response _) => kindResponse
  | .answer (.completion _) => kindCompletion
  | .notice _ => kindNotice

/-- The kind code of an Emission List record (11.2). -/
def EmitKind.kind : EmitKind → Byte
  | .offer => kindOffer
  | .settlement => kindSettlement

/-- The kind code of the frame in transmission on a line, if there is one (11.2). -/
def Tx.kind : Tx → Option Byte
  | .idle => none
  | .credit _ _ _ => some kindCredit
  | .forwarded f => some f.kind
  | .inserted r => some r.kind
  | .emission _ k _ _ => some k.kind
  | .delta _ => some kindDelta

/-- A truth value as a bit of a byte. -/
def flagBit (b : Bool) (n : Nat) : Byte := if b then BitVec.ofNat 8 (2 ^ n) else 0

/-- The code of an anchor source (11.6). -/
def AnchorSource.code : AnchorSource → Byte
  | .opening => 0
  | .record => 1

/-- The 8 bytes of a contract carried in kind (11.6). -/
def CarriedContract.bytes (k : CarriedContract) : List Byte :=
  beBytes 1 k.slot ++ beBytes 1 k.product ++
    [flagBit k.validFrom.isSome 0 ||| flagBit k.validTo.isSome 1 ||| flagBit k.trips.isSome 2] ++
    beBytes 2 (k.validFrom.getD 0) ++ beBytes 2 (k.validTo.getD 0) ++ beBytes 1 (k.trips.getD 0)

/-- The body of an OFFER record that carries this offer (11.6). The bits of its two flag fields to which 11.6 gives no
meaning are sent as 0 (DESIGN CHOICE, log entry 50). -/
def OfferRecord.bodyOf (r : OfferRecord) (o : HeldOffer) : List Byte :=
  beBytes 2 r.handle.slot ++ [r.handle.use] ++ beBytes 2 o.number ++ beBytes 6 r.card ++ beBytes 2 o.reportDay ++
    beBytes 2 o.anchorSeq.toNat ++ beBytes 3 (unsigned24 o.anchorBalance) ++ [o.anchorSource.code] ++
    beBytes 3 o.lateCredit ++ beBytes 3 o.conversion ++ beBytes 3 o.fee ++ beBytes 3 (unsigned24 o.purse) ++
    beBytes 4 o.excess ++ beBytes 3 o.debt ++ beBytes 1 o.converted ++ beBytes 1 o.dropped ++ beBytes 1 o.expired ++
    [flagBit o.ceilingClamped 0 ||| flagBit o.floorClamped 1] ++ beBytes 2 r.flags.word.toNat ++
    beBytes 1 o.inKind.length ++ (o.inKind.map CarriedContract.bytes).flatten

/-- The frame in transmission on a line, where chapter 11 lays it out whole: a credit frame, a forwarded record, or
an OFFER (11.2, 11.6). A set first mark is sent as 01h, and bits 1 to 7 of the flags as 0 (DESIGN CHOICE, log entry
39). -/
def Tx.frame : Tx → Option Frame
  | .credit lg ns first =>
    some ⟨kindCredit, 0, beBytes 2 lg.toNat ++ beBytes 2 ns.toNat ++ [if first then 1 else 0], []⟩
  | .forwarded f => some f
  | .emission _ _ (.offer r) _ => r.offer.map (fun o => ⟨kindOffer, 0, r.bodyOf o, []⟩)
  | .idle | .inserted _ | .emission _ _ _ _ | .delta _ => none

/-- The kind code of a Pair Link message (11.8). -/
def PairTx.kind : PairTx → Byte
  | .queued (.write _) => 0x80#8
  | .queued (.handover _) => 0x81#8
  | .stop => 0x82#8
  | .relay _ _ => 0x83#8
  | .yieldRequest => 0x84#8
  | .presence => 0x85#8

/-- The frame of a Pair Link message, where 11.8 lays its body out whole: HANDOVER carries the next mirror number,
and MIRROR STOP, YIELD REQUEST and PRESENCE carry nothing. The flags are 0 (DESIGN CHOICE, log entry 39). -/
def PairTx.frame (m : PairTx) : Option Frame :=
  match m with
  | .queued (.handover next) => some ⟨m.kind, 0, beBytes 2 next.toNat, []⟩
  | .stop | .yieldRequest | .presence => some ⟨m.kind, 0, [], []⟩
  | .queued (.write _) | .relay _ _ => none

end Sys2Proof.Machine
end

