-- ==== Sys2Proof/Tests/Slice0.lean ====
section
/-! SUPPORT. Tests: ill-formed commands refused, the worked examples of spec/, and for each statement a state that
meets its hypotheses. -/

namespace Sys2Proof.Tests

open Machine

/-! ### Small states -/

/-- An ACTIVE engine without the PAIR strap. -/
def act : State := { mirror := { straps := ⟨false, 0, false, 0⟩, role := .active, holdOut := true } }

/-- An ACTIVE engine of a pair, its view STALE and its Pair Link UP. -/
def lead : State :=
  { mirror := { straps := ⟨true, 0, true, 5⟩, role := .active, holdOut := true, linkUp := true } }

/-- A CURRENT STANDBY of pair number 5, member 1, its Pair Link UP. -/
def stand : State := { mirror := { straps := ⟨true, 1, false, 5⟩, currency := .current, linkUp := true } }

/-- A CONTROL record with a pair number, a target, a code and parameters, tag 7. -/
def control (pair target code : Byte) (params : List Byte) : Frame :=
  ⟨kindControl, 0, [pair, target, code, ~~~code, 0, 7] ++ params, []⟩

/-- The header and parameters of that record. -/
def header (target : Nat) (code : Byte) (params : List Byte) : Control :=
  ⟨target, code, some (~~~code), 7, some params⟩

/-- The state with a frame at the head of the Centre buffer. -/
def hold (s : State) (f : Frame) : State := { s with centre := { s.centre with rx := [f] } }

/-- The state with a frame at the head of the Station buffer. -/
def arrive (s : State) (f : Frame) : State := { s with station := { s.station with rx := [f] } }

/-- The state a step leads to; every step leads to one. -/
def next (r : Result) : Option State :=
  match r with
  | .next t => some t
  | _ => none

/-- A case of card 70161 in a phase. -/
def card70161 (phase : Phase) : CaseRecord :=
  { card := 70161, phase := phase, operator := 1, tr := 1000, knownSeq := 10, knownBalance := 2000
    pendingCredit := 0, feeWaived := false, anchor := ⟨10, 2000, none, .opening⟩, listVersion := some 1
    removalVersion := none, window := ⟨11, []⟩, contracts := [], tally := {}, flags := {}, offerNumber := 0
    offer := none, replacement := none, bindTime := none, settleTime := none, excluded := 0 }

/-- An engine with that case in slot 69, use count 4 (home set 17). -/
def with69 (s : State) (phase : Phase) : State := { s with slots := [(69, ⟨4, some (card70161 phase)⟩)] }

/-- The Insert Queue a step leaves. -/
def placed (r : Result) : Option (List Inserted) := (next r).map (·.insertQueue)

/-- The RESPONSE with tag 7 of member 0. -/
def response (code : Byte) (v : Verdict) : Inserted := .answer (.response ⟨7, code, 0, v⟩)

/-! ### Ill-formed commands are refused (Sys2Proof/WellFormed.lean) -/

/-- A MIRROR WRITE of one write, the last of its group. -/
def mirrored (w : TableWrite) : Instr := .mirrorWrite true ⟨0, true, false, .write w 0 1⟩

theorem test_wellFormed_writes : (mirrored (.policy {})).wf = true ∧ (mirrored (.slot 69 ⟨1, none⟩)).wf = true ∧
    (mirrored (.slot 69 ⟨0, some (card70161 .listed)⟩)).wf = true := by decide

theorem test_illFormed_policy :
    ([{ purseCeiling := 0 }, { purseCeiling := 8388608 }, { overdraftLimit := 100001 },
      { replacementFee := 100001 }, { refundStep := 0 }, { refundStep := 1001 }, { serviceDayOffset := 86400 },
      { settleLimit := 0 }, { settleLimit := 61 }, { retentionDays := 61 }, { futureSlack := 3601 }] :
      List Policy).all (fun p => !(mirrored (.policy p)).wf) = true := by decide

theorem test_illFormed_product :
    (mirrored (.product 256 {})).wf = false ∧
    ([⟨.none, .drop, 1, 0, 0⟩, ⟨.carnet, .inKind, 1000001, 5, 0⟩, ⟨.carnet, .inKind, 0, 0, 0⟩,
      ⟨.carnet, .inKind, 0, 256, 0⟩, ⟨.calendar, .inKind, 0, 401, 0⟩, ⟨.rolling, .inKind, 0, 5, 100001⟩] :
      List Product).all (fun e => !(mirrored (.product 0 e)).wf) = true := by decide

theorem test_illFormed_feed :
    (mirrored (.feed 64 {})).wf = false ∧
    ([{ sweep := 4294967296 }, { cleared := 4294967296 }, { ring := List.replicate 9 ⟨1, 0⟩ },
      { ring := [⟨0, 0⟩] }, { ring := [⟨2, 0⟩, ⟨1, 0⟩] }, { breaches := 65536 }, { unadmitted := 65536 },
      { regresses := 65536 }, { acksIgnored := 65536 }] :
      List Feed).all (fun e => !(mirrored (.feed 0 e)).wf) = true := by decide

theorem test_illFormed_counts :
    (mirrored (.horizon ⟨4294967296, 0⟩)).wf = false ∧ (mirrored (.horizon ⟨0, 4294967296⟩)).wf = false ∧
    (mirrored (.list ⟨some 4294967296, 0⟩)).wf = false ∧ (mirrored (.list ⟨none, 4294967296⟩)).wf = false ∧
    (mirrored (.clock ⟨4294967296, true⟩)).wf = false ∧ (mirrored (.clock ⟨1, false⟩)).wf = false ∧
    (mirrored (.notice .caseHeld { count := 65536 })).wf = false := by decide

theorem test_illFormed_slot :
    (mirrored (.slot 2112 {})).wf = false ∧
    ([{ card70161 .held with card := 0 }, { card70161 .held with card := 2 ^ 48 },
      { card70161 .held with operator := 256 }, { card70161 .held with tr := 4294967296 },
      { card70161 .held with knownBalance := 8388608 }, { card70161 .held with pendingCredit := 1000001 },
      { card70161 .held with anchor := ⟨0, -8388609, none, .opening⟩ },
      { card70161 .held with window := ⟨0, [(32, ⟨0, 0, true⟩)]⟩ },
      { card70161 .held with contracts := [(4, ⟨0, none, none, none, none, 0⟩)] },
      { card70161 .held with contracts := [(0, ⟨256, none, none, none, none, 0⟩)] },
      { card70161 .held with contracts := [(0, ⟨0, some 1000001, none, none, none, 0⟩)] },
      { card70161 .held with contracts := [(0, ⟨0, none, some 65536, none, none, 0⟩)] },
      { card70161 .held with contracts := [(0, ⟨0, none, none, none, some 256, 0⟩)] },
      { card70161 .held with tally := { uses := 65536 } },
      { card70161 .held with tally := { lateCredit := 16777216 } },
      { card70161 .held with offerNumber := 65536 }, { card70161 .held with replacement := some 0 },
      { card70161 .held with excluded := 65 }] :
      List CaseRecord).all (fun c => !(mirrored (.slot 69 ⟨0, some c⟩)).wf) = true := by decide

theorem test_illFormed_lists :
    (mirrored (.listOp (.append ⟨⟨2112, 0⟩, .add, false⟩))).wf = false ∧
    (mirrored (.listOp (.setMark ⟨⟨0, 0⟩, .remove, true⟩))).wf = false ∧
    (mirrored (.emitOp (.append ⟨⟨2112, 0⟩, .offer, false⟩))).wf = false ∧
    (mirrored (.emitOp (.setMark ⟨⟨0, 0⟩, .settlement, true⟩))).wf = false := by decide

theorem test_illFormed_messages :
    (Instr.mirrorWrite true ⟨0, true, false, .write (.policy {}) 1 1⟩).wf = false ∧
    (Instr.mirrorWrite true ⟨0, true, true, .listRun 33 []⟩).wf = false ∧
    (Instr.mirrorWrite true ⟨0, true, true, .emitRun 66 []⟩).wf = false ∧
    (Instr.mirrorWrite true ⟨0, true, true, .listRun 0 (List.replicate 65 ⟨⟨0, 0⟩, .add, false⟩)⟩).wf = false ∧
    (Instr.mirrorWrite true ⟨0, true, true, .emitRun 0 [⟨⟨2112, 0⟩, .offer, false⟩]⟩).wf = false ∧
    (Instr.responseRelay true (.summary ⟨⟨69, 0⟩, card70161 .held, 0, false, false⟩)).wf = false := by decide

/-! ### No command is spelled by bits -/

theorem test_decodeTableWord_none : decodeTableWord 16 0x1234 = none := by decide

theorem test_withFetchWord_same : State.reset.withFetchWord 16 0x1234 = State.reset := by decide

/-! ### 02, 2.11: spill and stale handles -/

/-- A case of this card in OPENING. -/
def opened (card : Nat) : CaseRecord := { card70161 .opening with card := card, listVersion := none }

/-- The clock is set, and set 17 holds what 2.11's table shows before the OPEN CASE of each line. -/
def set17 (slots : SMap Slot) (spill : SMap Nat) : State :=
  { act with clock := ⟨1000, true⟩, slots := slots, spill := spill }

/-- OPEN CASE of a card without contracts, its report time 1000. -/
def openOf (card : Nat) : Frame :=
  control 0 0 0x01 (beBytes 6 card ++ beBytes 4 1000 ++ [0, 10, 0, 0, 0, 0, 0, 0, 0, 1, 0])

theorem test_open_first_way :
    placed (exec .openCase (hold (set17 [(68, ⟨3, none⟩)] []) (openOf 5137))) =
      some [response 0x01 (.reply (.opened ⟨68, 3⟩))] := by decide

/-- All four ways of set 17 live. -/
def full17 : SMap Slot :=
  [(68, ⟨3, some (opened 5137)⟩), (69, ⟨0, some (opened 70161)⟩), (70, ⟨0, some (opened 200721)⟩),
   (71, ⟨0, some (opened 1000465)⟩)]

theorem test_open_spills :
    (next (exec .openCase (hold (set17 full17 []) (openOf 2999825)))).map (fun t => (t.insertQueue, t.spill)) =
      some ([response 0x01 (.reply (.opened ⟨2048, 0⟩))], [(17, 1)]) := by decide

/-- Set 17 after 70161 has been cancelled, both spilled cases live. -/
def after70161 : SMap Slot :=
  [(68, ⟨3, some (opened 5137)⟩), (69, ⟨1, none⟩), (70, ⟨0, some (opened 200721)⟩),
   (71, ⟨0, some (opened 1000465)⟩), (2048, ⟨0, some (opened 2999825)⟩), (2049, ⟨0, some (opened 4096017)⟩)]

theorem test_lookup_searches_spill : lookup 4096017 (set17 after70161 [(17, 2)]) = some 2049 := by decide

theorem test_open_reuses_way :
    placed (exec .openCase (hold (set17 after70161 [(17, 2)]) (openOf 8209425))) =
      some [response 0x01 (.reply (.opened ⟨69, 1⟩))] := by decide

theorem test_cancel_opening_frees :
    (next (exec .cancelCase (hold
        { set17 full17 [(17, 2)] with listQueue := [⟨⟨69, 0⟩, .add, false⟩] }
        (control 0 0 0x02 [0, 69, 0])))).map (fun t => (t.slotAt 69, t.spillAt 17, t.listQueue)) =
      some (⟨1, none⟩, 2, []) := by decide

theorem test_read_stale_handle :
    placed (exec .readCase (hold (set17 after70161 [(17, 2)]) (control 0 0 0x07 [0, 0, 69, 0]))) =
      some [response 0x07 (.reject .staleHandle)] := by decide

theorem test_read_card_not_found :
    placed (exec .readCase (hold (set17 after70161 [(17, 2)]) (control 0 0 0x07 (1 :: beBytes 6 70161)))) =
      some [response 0x07 (.reply .caseNotFound)] := by decide

theorem test_close_moves_spill :
    (next (exec .closeCase (hold
        { set17 [(2048, ⟨0, some { opened 2999825 with phase := .settled }⟩)] [(17, 2)] with mode := .attributing }
        (control 0 0 0x06 [8, 0, 0])))).map (fun t => (t.slotAt 2048, t.spillAt 17)) =
      some (⟨1, none⟩, 1) := by decide

/-! ### 03, 3.9: a window through its records -/

/-- The case of card 3,800,226 as 3.9 opens it. -/
def case39 : CaseRecord :=
  { card70161 .listed with
    card := 3800226, tr := 40000000, knownSeq := 1200, knownBalance := 3450
    anchor := ⟨1200, 3450, none, .opening⟩, listVersion := some 8202, window := ⟨1201, []⟩ }

/-- A purse USE of 3.9's card. -/
def purseUse (seq : Count16) (time debit : Nat) (post : Int) : CardRecord :=
  ⟨3800226, seq, time, 12, post, .use 4 debit none none none none none⟩

/-- A record of 3.9 measured against a case. -/
def after39 (r : CardRecord) (c : CaseRecord) : Attributed := measured 0b01100#5 ⟨some 39000000, 8210⟩ {} r c

/-- The case after records 1,203 and 1,204, and after 1,201 too. -/
def with1204 : CaseRecord :=
  { case39 with
    anchor := ⟨1203, 3950, some 39999800, .record⟩, tally := { uses := 1, debitSum := 250 }
    window := ⟨1201, [(1203, ⟨3950, -300, true⟩), (1204, ⟨3700, -250, false⟩)]⟩ }
def with1201 : CaseRecord :=
  { with1204 with
    window := ⟨1201, [(1201, ⟨3250, -200, true⟩), (1203, ⟨3950, -300, true⟩), (1204, ⟨3700, -250, false⟩)]⟩ }

/-- The LOAD of sequence 1,202. -/
def load1202 : CardRecord := ⟨3800226, 1202, 39995500, 12, 4250, .load 1 1000⟩

theorem test_window_anchor :
    (after39 (purseUse 1203 39999800 300 3950) case39).cls = .preReport ∧
    (after39 (purseUse 1204 40002000 250 3700)
      { with1204 with window := ⟨1201, [(1203, ⟨3950, -300, true⟩)]⟩, tally := {} }).case = with1204 ∧
    (after39 (purseUse 1203 39999800 300 3950) case39).case =
      { with1204 with window := ⟨1201, [(1203, ⟨3950, -300, true⟩)]⟩, tally := {} } := by decide

theorem test_window_chain :
    (after39 (purseUse 1201 39990100 200 3250) with1204).case = with1201 ∧
    (after39 load1202 with1201).case.flags = {} ∧
    (after39 load1202 with1201).case.window.at 1 = some ⟨4250, 1000, true⟩ ∧
    (after39 { load1202 with post := 4260 } with1201).case.flags.chainBreak = true := by decide

theorem test_window_duplicate :
    (after39 (purseUse 1201 39990100 200 3250) with1201).cls = .duplicate ∧
    (after39 (purseUse 1201 39990100 200 3250) with1201).case.tally.duplicates = 1 := by decide

/-- The case after record 1,236 has come before 1,201. -/
def with1236 : CaseRecord :=
  { with1204 with window := ⟨1205, [(1236, ⟨3010, -40, false⟩)]⟩, tally := { uses := 2, debitSum := 290 } }

theorem test_window_slides :
    (after39 (purseUse 1236 40090000 40 3010) with1204).case = with1236 := by decide

theorem test_window_behind :
    (after39 (purseUse 1201 39990100 200 3250) with1236).stale = true ∧
    (after39 load1202 with1236).case = { with1236 with tally := { uses := 2, debitSum := 290, staleSequences := 1 } } ∧
    (anchored (fun _ => {}) {} with1236).phase = .held ∧
    (anchored (fun _ => {}) {} with1236).flags.windowPassed = true := by decide

/-! ### 03, 3.10: is this use blocked? -/

/-- Feed 12 of 3.10. -/
def feed12 : Feed :=
  { active := true, sweep := 40000900, cleared := 8190, ring := [⟨8199, 40000950⟩, ⟨8205, 40001800⟩] }

/-- The class of a use of 3.10. -/
def class310 (time : Nat) (epoch version : Option Nat) : RecordClass :=
  (measured 0b01100#5 ⟨some 39000000, 8210⟩ feed12
    ⟨3800226, 1205, time, 12, 3600, .use 4 100 none none none epoch version⟩ with1204).cls

theorem test_blocked_uses :
    class310 40001000 (some 39000000) (some 8204) = .blockedUse ∧ class310 40001000 none none = .postReport ∧
    class310 40002500 none none = .blockedUse ∧ class310 40000700 none none = .postReport := by decide

theorem test_breach_is_marked :
    let body := beBytes 6 3800226 ++ beBytes 2 1205 ++ beBytes 4 40000700 ++ [12, 0, 0, 0, 0, 0, 4] ++
      beBytes 4 100 ++ beBytes 3 3600 ++ [0]
    (next (exec .attributeRecord
        (arrive { act with slots := [(648, ⟨2, some with1204⟩)], feeds := [(12, feed12)] }
          ⟨kindUse, 0, body, []⟩))).map
        (fun t => (t.upQueue.map (·.trailer), (t.feedAt 12).breaches, (t.noticeAt .feedBreach).subject)) =
      some ([[11, 2, 136, 2, 2]], 1, some (.feed 12)) := by decide

/-! ### 04, 4.11 to 4.13: feeds, a ring, a walk -/

/-- The feeds of 4.11 after its event 1. -/
def feeds411 : SMap Feed :=
  [(3, { active := true, sweep := 40000200, cleared := 8195 }),
   (7, { active := true, sweep := 40000300, cleared := 8198, ring := [⟨8203, 40000400⟩] }),
   (12, { active := true, sweep := 39999500, cleared := 8190, ring := [⟨8199, 40000600⟩] })]

/-- The engine of 4.11 after its event 1. -/
def engine411 : State :=
  { act with feeds := feeds411, horizon := ⟨39999500, 8190⟩, clock := ⟨40000950, true⟩
             injector := ⟨some 39000000, 8210⟩ }

/-- A SWEEP, and a LISTACK of 4.11's epoch. -/
def sweepOf (feed time : Nat) : Frame := ⟨kindSweep, 0, beBytes 1 feed ++ beBytes 4 time, []⟩
def listackOf (feed version time : Nat) : Frame :=
  ⟨kindListack, 0, beBytes 1 feed ++ beBytes 4 39000000 ++ beBytes 4 version ++ beBytes 4 time, []⟩

theorem test_sweep_clears :
    (next (exec .sweep (arrive engine411 (sweepOf 12 40000800)))).map (fun t => (t.feedAt 12, t.horizon, t.walk)) =
      some ({ active := true, sweep := 40000800, cleared := 8199 }, ⟨40000200, 8195⟩, some ⟨0, false⟩) := by decide

theorem test_sweep_regress :
    (next (exec .sweep (arrive engine411 (sweepOf 7 40000250)))).map
        (fun t => ((t.feedAt 7).regresses, (t.feedAt 7).sweep, (t.noticeAt .sweepRegress).count)) =
      some (1, 40000300, 1) := by decide

theorem test_listack_clears_at_once :
    (next (exec .listack (arrive engine411 (listackOf 3 8206 40000100)))).map (fun t => t.feedAt 3) =
      some { active := true, sweep := 40000200, cleared := 8206 } := by decide

theorem test_listack_ignored :
    (next (exec .listack (arrive engine411 (listackOf 7 8202 40000500)))).map
        (fun t => ((t.feedAt 7).acksIgnored, (t.feedAt 7).ring, (t.noticeAt .ackIgnored).count)) =
      some (1, [⟨8203, 40000400⟩], 1) := by decide

/-- Feed 20 of 4.12. -/
def feed20 : Feed :=
  { active := true, sweep := 40003000, cleared := 8200
    ring := (List.range 8).map (fun i => ⟨8201 + i, 40003100 + 100 * i⟩) }

theorem test_ring_coalesces :
    (feed20.enter ⟨8210, 40004500⟩).ring.map (·.version) = [8201, 8202, 8203, 8204, 8205, 8206, 8207, 8210] ∧
    ({ feed20.enter ⟨8210, 40004500⟩ with sweep := 40004000 } : Feed).clearRing =
      { feed20 with sweep := 40004000, cleared := 8207, ring := [⟨8210, 40004500⟩] } := by decide

/-- The engine of 4.13, its walk at slot 70. -/
def engine413 : State :=
  { act with
    horizon := ⟨40000200, 8199⟩, clock := ⟨40001000, true⟩, walk := some ⟨70, false⟩
    slots :=
      [(70, ⟨0, some { opened 200721 with
          phase := .listed, tr := 39999500, listVersion := some 8190, anchor := ⟨4413, 500, some 39999000, .record⟩
          window := ⟨4411, [(4411, ⟨0, 0, true⟩), (4413, ⟨500, 0, true⟩)]⟩ }⟩),
       (2049, ⟨0, some { opened 4096017 with phase := .bound, tr := 39998000, listVersion := some 8178 }⟩)] }

theorem test_walk_finds_hole :
    (next (exec .walkVisit engine413)).map
        (fun t => ((t.caseAt 70).map (fun c => (c.phase, c.flags.hole, c.offer)), t.noticeAt .caseHeld)) =
      some (some (.held, true, none), { count := 1, subject := some (.handle ⟨70, 0⟩) }) := by decide

theorem test_walk_settles :
    (next (exec .walkVisit { engine413 with walk := some ⟨2049, true⟩ })).map
        (fun t => ((t.caseAt 2049).map (fun c => (c.phase, c.settleTime)), t.emissions)) =
      some (some (.settled, some 40001000), [⟨⟨2049, 0⟩, .settlement, false⟩]) := by decide

/-! ### 05, 5.9: the last versions -/

theorem test_open_exhausted :
    placed (exec .openCase (hold { act with clock := ⟨1000, true⟩, injector := ⟨some 5, 4294967295⟩ }
        (openOf 5137))) = some [response 0x01 (.reject .listExhausted)] := by decide

theorem test_version_reused :
    let s : State := { act with injector := ⟨some 5, 4294967295⟩ }
    formDelta ⟨⟨69, 4⟩, .remove, false⟩ (with69 s .voiding) = ⟨⟨69, 4⟩, .remove, 5, 4294967295, some 70161⟩ := by
  decide

theorem test_remove_frees :
    (next (exec .removeInjected
        { with69 act .voiding with
          injector := ⟨some 5, 4294967294⟩, listQueue := [⟨⟨69, 4⟩, .remove, false⟩]
          station := { tx := .delta ⟨⟨69, 4⟩, .remove, 5, 4294967295, some 70161⟩ } })).map
        (fun t => (t.slotAt 69, t.injector.counter, t.listQueue)) =
      some (⟨5, none⟩, 4294967295, []) := by decide

/-! ### 06, 6.6: restoration -/

/-- An offer of a case without contracts. -/
def plainOffer (p : Policy) (balance : Int) (pending late : Nat) : HeldOffer :=
  computeOffer (fun _ => {}) p 1
    { card70161 .listed with
      tr := 1710750000, pendingCredit := pending, tally := { lateCredit := late }
      anchor := ⟨903, balance, some 1, .record⟩ }

/-- The products of case A. -/
def productsA (code : Nat) : Product :=
  if code = 41 then ⟨.calendar, .convert, 0, 30, 200⟩ else if code = 7 then ⟨.carnet, .inKind, 0, 10, 0⟩ else {}

theorem test_caseA :
    let o := computeOffer productsA { purseCeiling := 5000, refundStep := 50 } 1
      { card70161 .listed with
        tr := 1710750000, tally := { lateCredit := 2000, loads := 1, loadSum := 500 }
        anchor := ⟨903, 1240, some 1, .record⟩
        contracts := [(0, ⟨41, some 9600, some 19782, some 19811, none, 0⟩), (2, ⟨7, none, none, none, some 4, 0⟩)] }
    o.reportDay = 19800 ∧ o.conversion = 3600 ∧ o.fee = 500 ∧ o.purse = 5000 ∧ o.excess = 1340 ∧ o.debt = 0 ∧
      o.ceilingClamped = true ∧ o.inKind = [⟨2, 7, none, none, some 4⟩] ∧ o.converted = 1 ∧ o.dropped = 0 ∧
      o.expired = 0 := by decide

theorem test_offer_body :
    let c : CaseRecord :=
      { card70161 .listed with
        tr := 1710750000, tally := { lateCredit := 2000 }, anchor := ⟨903, -1240, some 1, .record⟩
        contracts := [(2, ⟨7, none, none, none, some 4, 0⟩)] }
    let o := computeOffer productsA {} 1 c
    let bs := (⟨⟨69, 4⟩, c.card, some o, { tallyFinal := true }⟩ : OfferRecord).bodyOf o
    bs.length = 53 ∧ bs.take 13 = [0, 69, 4, 0, 1, 0, 0, 0, 1, 18, 17, 77, 88] ∧
      (bs.drop 15).take 4 = [0xFF, 0xFB, 0x28, 1] ∧ bs.drop 41 = [0, 0, 64, 1, 2, 7, 4, 0, 0, 0, 0, 4] := by decide

theorem test_caseB :
    let o := plainOffer {} (-700) 0 0
    o.fee = 0 ∧ o.purse = -500 ∧ o.excess = 0 ∧ o.debt = 200 ∧ o.floorClamped = true := by decide

theorem test_caseC :
    feeCollected {} false (-300 + 450) = 150 ∧ purseOf {} 0 = 0 := by decide

theorem test_caseD :
    let p : Policy := {}
    treat p 19800 ⟨.rolling, .convert, 4500, 30, 0⟩ 0 ⟨1, none, none, none, none, 0⟩ = .converted 4500 ∧
    treat p 19800 ⟨.rolling, .inKind, 0, 7, 0⟩ 1 ⟨2, none, some 19795, none, none, 0⟩ =
      .carried ⟨1, 2, some 19795, none, none⟩ ∧
    extent 19800 ⟨.rolling, .inKind, 0, 7, 0⟩ ⟨2, none, some 19795, none, none, 0⟩ = 2 ∧
    treat p 19800 ⟨.calendar, .convert, 0, 30, 200⟩ 2 ⟨3, some 1000, some 19770, some 19802, none, 0⟩ = .converted 0 ∧
    treat p 19800 ⟨.calendar, .inKind, 0, 30, 0⟩ 3 ⟨4, none, some 19760, some 19790, none, 0⟩ = .expired ∧
    extent 19800 ⟨.calendar, .inKind, 0, 30, 0⟩ ⟨4, none, some 19800, some 20199, none, 0⟩ = 30 := by decide

theorem test_caseE :
    let p : Policy := { purseCeiling := 8388607, replacementFee := 100000, refundStep := 1000 }
    let o := plainOffer p 8388607 1000000 16777215
    o.lateCredit = 16777215 ∧ o.fee = 100000 ∧ o.purse = 8388607 ∧ o.excess + 4000000 = 20677215 ∧
      o.ceilingClamped = true := by decide

theorem test_sequence_wrap :
    newer 4 65530 = true ∧ newer 32868 100 = false ∧ newer 100 32868 = false ∧ newer 65520 10 = false ∧
    (Window.mk 65520 []).distance 5 = 21 ∧ (Window.mk 65520 []).distance 60 = 76 ∧
    ((Window.mk 65520 []).slide 60).base = 29 ∧ (Window.mk 65520 []).distance 65500 = 65516 := by decide

/-- The held case of 6.6: product 88 in slot 1. -/
def case88 : CaseRecord :=
  { card70161 .held with
    contracts := [(1, ⟨88, none, none, none, some 20, 0⟩)], flags := { unknownProduct := true } }

theorem test_held_wait :
    (next (exec .acceptCase (hold { act with slots := [(69, ⟨0, some case88⟩)] }
        (control 0 0 0x03 [0, 69, 0, 2])))).map (fun t => (t.caseAt 69, t.emissions)) =
      some (some case88, []) := by decide

theorem test_held_released :
    (next (exec .acceptCase (hold
        { act with slots := [(69, ⟨0, some case88⟩)], products := [(88, ⟨.carnet, .inKind, 0, 20, 0⟩)] }
        (control 0 0 0x03 [0, 69, 0, 1])))).map
        (fun t => ((t.caseAt 69).map (fun c => (c.phase, c.flags, c.offerNumber)), t.emissions)) =
      some (some (.anchored, {}, 1), [⟨⟨69, 0⟩, .offer, false⟩]) := by decide

/-! ### 08, 8.10: commands behind a full Insert Queue -/

/-- An engine whose Insert Queue holds this many records. -/
def crowded (n : Nat) : State :=
  { act with insertQueue := List.replicate n (.notice ⟨.caseHeld, 1, none, 0⟩) }

/-- The load session of 8.10, with its pointer. -/
def session810 (pointer : Nat) : CommandUnit := { session := some ⟨250, 2, pointer⟩ }

theorem test_load_begins :
    (next (exec .beginProductLoad (hold (crowded 62) (control 0 0 0x22 [0, 250, 0, 2])))).map
        (fun t => (t.cu, t.insertQueue.drop 62)) =
      some (session810 250, [response 0x22 (.reply (.loadBegun 250 2 9 250))]) := by decide

/-- Eight carnet entries, the fourth with a restore mode that no code names. -/
def entries810 : List Byte :=
  8 :: ((List.range 8).map (fun i => ([3, if i = 3 then 4 else 1] : List Byte) ++ [0, 0, 0, 0, 10, 0, 0, 0])).flatten

theorem test_load_writes :
    (next (exec .productData (hold { crowded 63 with cu := session810 250 } (control 0 0 0x23 entries810)))).map
        (fun t => (t.cu, t.products.map (·.1), t.insertQueue.drop 63)) =
      some (session810 2, [0, 1, 250, 251, 252, 254, 255], [response 0x23 (.reply (.loaded 8 1 2))]) := by decide

theorem test_read_waits :
    (next (exec .readCase (hold { with69 (crowded 64) .held with cu := session810 2 }
        (control 0 0 0x07 [0, 0, 69, 4])))).map (fun t => (t.cu.waiting.length, t.cu.session, t.insertQueue.length)) =
      some (2, none, 64) := by decide

theorem test_load_without_session :
    placed (exec .productData (hold act (control 0 0 0x23 ([1, 3, 1, 0, 0, 0, 0, 10, 0, 0, 0])))) =
      some [response 0x23 (.reject .noLoadSession)] := by decide

/-! ### 09, 9.7: the order of notices -/

/-- The engine of 9.7 when a place is given. -/
def engine97 : State :=
  { act with
    notices := ⟨[(4, { count := 1, subject := some (.handle ⟨914, 2⟩) }),
      (6, { count := 2000, subject := some (.feed 22) })], .feedBreach⟩ }

theorem test_notice_order :
    (next (exec .placeNotice engine97)).map (fun t => (t.insertQueue, t.notices.pointer, t.noticeAt .lateRecord)) =
      some ([.notice ⟨.lateRecord, 1, some (.handle ⟨914, 2⟩), 0⟩], .lateRecord, {}) := by decide

theorem test_notice_wraps :
    (next (exec .placeNotice { engine97 with notices := ⟨[(6, { count := 1 })], .sweepRegress⟩ })).map
        (fun t => t.notices.pointer) = some .feedBreach := by decide

/-! ### 10, 10.8: a takeover -/

theorem test_takeover_asks :
    (next (exec .takeover (hold stand (control 5 2 0x42 [])))).map
        (fun t => (t.cu.busy, t.mirror.tx, t.mirror.yieldDue)) =
      some (some ⟨.takeover false, 7, true, false⟩,
        some (.relay (.response ⟨7, 0x42, 1, .reply .begun⟩) true), true) := by decide

theorem test_takeover_refused_stale :
    (next (exec .takeover (hold { stand with mirror := { stand.mirror with currency := .stale } }
        (control 5 2 0x42 [])))).map (fun t => t.mirror.tx) =
      some (some (.relay (.response ⟨7, 0x42, 1, .reject .staleStandby⟩) true)) := by decide

theorem test_handover_matches :
    (next (exec (.handover true 40124)
        { stand with mirror := { stand.mirror with expected := 40124 } })).map
        (fun t => (t.mirror.stage, t.mirror.currency, t.noticeAt .mirrorStale)) =
      some (.waiting (.handover .current), .current, {}) := by decide

/-- R167, R173: the view is the currency held at the handover, although the link has gone DOWN since. -/
theorem test_view_of_handover :
    (next (exec .claimComplete
        { stand with
          mirror := { stand.mirror with stage := .claiming (.handover .current), currency := .stale, linkUp := false } })).map
        (fun t => (t.isActive, t.mirror.currency, t.mirror.next, t.mirror.queue.length)) =
      some (true, .current, 1, 1) := by decide

/-- R139, R164: a TAKEOVER whose REPLY still waits is in progress, and ends with the link. -/
theorem test_takeover_ends_with_link :
    (next (exec .pairLinkDown
        { stand with
          cu := { waiting := [.response ⟨7, 0x42, 1, .reply .begun⟩], busy := some ⟨.takeover false, 7, false, false⟩ } })).map
        (fun t => (t.cu, t.mirror.yieldDue, (t.noticeAt .busyDoneFail).count)) =
      some ({}, false, 1) := by decide

/-- R165, R168: what a free slot holds fits one message. -/
theorem test_free_slot_is_one_message :
    (TableWrite.slot 69 ⟨5, none⟩).payloads = [.write (.slot 69 ⟨5, none⟩) 0 1] ∧
    (copyPayloads 2451 lead).length = 1 := by decide

theorem test_short_pulse_is_counted :
    (next (exec (.forcePulseReleased 25 false) lead)).map (fun t => (t.isActive, (t.noticeAt .forceGlitch).count)) =
      some (true, 1) := by decide

theorem test_valid_pulse_resets :
    (next (exec (.forcePulseReleased 50 false) lead)).map
        (fun t => (t.isActive, t.mirror.holdOut, t.resetCause, (t.noticeAt .roleChange).count)) =
      some (false, false, .forced, 1) := by decide

/-! ### 01 and 11: the lines -/

/-- The check value published for a checkword of these parameters, of the digits 1 to 9 (not from spec/). -/
theorem test_checkword : checkword [0x31, 0x32, 0x33, 0x34, 0x35, 0x36, 0x37, 0x38, 0x39] = 0x29B1#16 := by decide +kernel

theorem test_record_arrives :
    (next (exec (.recordFrameArrival .station (Frame.toBytes (sweepOf 3 40000200))) act)).map
        (fun t => (t.station.rx, t.station.nr, t.station.linkUp, t.station.counters.good)) =
      some ([sweepOf 3 40000200], 1, true, 1) := by decide +kernel

theorem test_credit_frame :
    (Tx.credit 16 259 true).frame = some ⟨0, 0, [0, 16, 1, 3, 1], []⟩ ∧
    (PairTx.queued (.handover 40124)).frame = some ⟨0x81, 0, [156, 188], []⟩ := by decide

theorem test_loss_is_counted :
    (next (exec (.creditFrameArrival .station (Frame.toBytes ⟨kindCredit, 0, [0, 20, 0, 9, 0], []⟩))
        { act with station := { first := false, nr := 6 } })).map
        (fun t => (t.station.nr, t.station.lh, t.station.counters.discards, (t.noticeAt .checkword).count)) =
      some (9, some 20, 3, 1) := by decide +kernel

/-- A port that may begin a record frame. -/
def ready : Port := { linkUp := true, first := false, lh := some 4, lastCredit := some (16, false) }

theorem test_upward_order :
    (next (exec .upwardArbiterChoice
        { crowded 1 with centre := ready, upQueue := [sweepOf 3 5], upPointer := .forward })).map
        (fun t => (t.upPointer, t.centre.ns)) = some (.insert, 1) := by decide

theorem test_fifth_choice_forwards :
    (next (exec .downwardArbiterChoice
        { with69 act .opening with
          station := ready, listQueue := [⟨⟨69, 4⟩, .add, false⟩], injector := ⟨some 5, 9⟩, deltaCount := 4
          downQueue := [sweepOf 3 5] })).map (fun t => (t.deltaCount, t.station.tx)) =
      some (0, .forwarded (sweepOf 3 5)) := by decide

theorem test_line_down_cuts :
    (next (exec (.silenceTimeout .centre)
        { act with centre := { ready with tx := .forwarded (sweepOf 3 5), ns := 2 } })).map
        (fun t => (t.centre.linkUp, t.centre.tx.isForwarded, t.centre.ns)) = some (false, false, 2) := by decide

/-! ### Witnesses: for each statement with hypotheses, states and operands that meet them, clause by clause -/

/-- The engine with a command in hand. -/
def handed (s : State) (code : Byte) (params : List Byte) : State := hold s (control 0 0 code params)

/-- A SWEEP of feed 3, and a LOAD of card 70161 as its bytes. -/
def aSweep : Frame := sweepOf 3 40000200
def loadBody (seq time : Nat) : List Byte :=
  beBytes 6 70161 ++ beBytes 2 seq ++ beBytes 4 time ++ [5, 0, 3, 0, 0, 0, 100, 0, 8, 52]
def aLoad (seq time : Nat) : Frame := ⟨kindLoad, 0, loadBody seq time, []⟩

/-- A port with this many SWEEPs in its buffer. -/
def filled (n : Nat) : Port := { rx := List.replicate n aSweep }

theorem witness_RecordFrameIsTaken :
    Frame.ofBytes aSweep.toBytes = some aSweep ∧ aSweep.kind ≠ kindCredit ∧
    ({ act with station := filled 15 }.isActive = true ∧ ({ act with station := filled 15 }.station.rx.length = 15)) ∧
    ({ act with station := filled 16 }.isActive = true ∧ ({ act with station := filled 16 }.station.rx.length = 16)) ∧
    stand.isActive = false ∧ Frame.ofBytes [1, 2, 3] = none := by decide +kernel

theorem witness_CreditFrameAligns :
    Frame.ofBytes (Frame.toBytes ⟨kindCredit, 0, [0, 20, 0, 16, 0], []⟩) = some ⟨kindCredit, 0, [0, 20, 0, 16, 0], []⟩ ∧
    Credit.ofBody [0, 20, 0, 16, 0] = some ⟨20, 16, false⟩ ∧ Credit.ofBody [0, 20, 0, 17, 1] = some ⟨20, 17, true⟩ ∧
    Frame.ofBytes (Frame.toBytes ⟨kindCredit, 0, [0, 20, 0, 17], []⟩) = some ⟨kindCredit, 0, [0, 20, 0, 17], []⟩ ∧
    act.isActive = true ∧ stand.isActive = false := by decide +kernel

theorem witness_CreditFramesAreSent :
    act.isActive = true ∧ act.station.tx = .idle ∧ State.reset.station.tx = .credit 16 0 true ∧
    (filled 15).heldGrant = none ∧ (filled 15).rx.length = 15 ∧ (filled 16).rx.length = 16 ∧ (filled 16).rx ≠ [] := by
  decide

theorem witness_LineDownCutsTransmission :
    ({ ready with silence := 199 } : Port).silence < 200 ∧ ready.linkUp = true ∧
    ({ act with station := { ready with tx := .delta ⟨⟨69, 4⟩, .remove, 5, 9, some 70161⟩ } }.station.silence < 200) := by
  decide

theorem witness_CompletedRecordLeavesItsQueue :
    ({ act with upQueue := [aSweep], centre := { ready with tx := .forwarded aSweep } }.port .centre).tx =
      .forwarded aSweep ∧
    { crowded 1 with centre := { ready with tx := .inserted (.notice ⟨.caseHeld, 1, none, 0⟩) } }.centre.tx =
      .inserted (.notice ⟨.caseHeld, 1, none, 0⟩) := by decide

theorem witness_ClassifierForwardsOrConsumes :
    (let s := arrive { act with upQueue := List.replicate 255 aSweep } ⟨kindTime, 0, [], []⟩
     s.isActive = true ∧ s.station.rx = ⟨kindTime, 0, [], []⟩ :: [] ∧
       kindTime ∉ [kindUse, kindLoad, kindSale, kindSweep, kindListack] ∧ s.upQueue.length < 256) ∧
    (let s := hold { act with downQueue := List.replicate 127 aSweep } (control 1 0 0x39 [])
     s.isActive = true ∧ s.centre.rx = control 1 0 0x39 [] :: [] ∧
       routing s.mirror.straps (control 1 0 0x39 []) = .onward ∧ (control 1 0 0x39 []).kind ≠ kindTime ∧
       s.downQueue.length < 128) ∧
    (let s := hold act (control 0 2 0x39 [])
     s.isActive = true ∧ s.centre.rx = control 0 2 0x39 [] :: [] ∧
       routing s.mirror.straps (control 0 2 0x39 []) = .ignored) ∧
    aSweep.kind ≠ kindControl := by decide +kernel

/-- An engine with three sources, the forward queue served last. -/
def sources (lh : Count16) : State := { crowded 1 with centre := { ready with lh := some lh }, upPointer := .forward }

theorem witness_UpwardArbiterTakesNextSource :
    (sources 1).isActive = true ∧ (sources 1).centre.maySend ∧ (sources 16).centre.maySend ∧
    (sources 1).upPointer.after = [] ++ .insert :: [.emission, .forward] ∧
    (∀ x ∈ ([] : List UpSource), (sources 1).offered x = none) ∧
    (sources 1).offered .insert = some (.inserted (.notice ⟨.caseHeld, 1, none, 0⟩)) :=
  ⟨rfl, ⟨rfl, rfl, 1, rfl, by decide, by decide⟩, ⟨rfl, rfl, 16, rfl, by decide, by decide⟩, rfl, by simp, rfl⟩

/-- An engine with a delta and a record waiting for the Station Line. -/
def deltas (count : Nat) : State :=
  { with69 act .opening with
    station := ready, listQueue := [⟨⟨69, 4⟩, .add, false⟩], injector := ⟨some 5, 9⟩, deltaCount := count
    downQueue := [aSweep] }

theorem witness_DownwardArbiterChooses :
    ((deltas 3).isActive = true ∧ (deltas 3).station.maySend ∧
      (deltas 3).listQueue = ⟨⟨69, 4⟩, .add, false⟩ :: [] ∧ (deltas 3).mirror.drain = none ∧
      (deltas 3).injector.epoch.isSome = true ∧ (deltas 3).deltaCount < 4) ∧
    ((deltas 4).isActive = true ∧ (deltas 4).station.maySend ∧ (deltas 4).downQueue = aSweep :: [] ∧
      4 ≤ (deltas 4).deltaCount) ∧
    (let s : State := { deltas 0 with mirror := { act.mirror with drain := some false } }
     s.isActive = true ∧ s.station.maySend ∧ s.downQueue = aSweep :: [] ∧ s.mirror.drain.isSome = true) :=
  ⟨⟨rfl, ⟨rfl, rfl, 4, rfl, by decide, by decide⟩, rfl, rfl, rfl, by decide⟩,
   ⟨rfl, ⟨rfl, rfl, 4, rfl, by decide, by decide⟩, rfl, by decide⟩,
   ⟨rfl, ⟨rfl, rfl, 4, rfl, by decide, by decide⟩, rfl, rfl⟩⟩

/-- The parameters of OPEN CASE of a card and a report time, without contracts. -/
def openBytes (card tr : Nat) : List Byte :=
  beBytes 6 card ++ beBytes 4 tr ++ [0, 10, 0, 0, 0, 0, 0, 0, 0, 1, 0]
def openRead (card tr : Nat) : OpenParams := ⟨card, tr, 10, 0, 0, 0, 1, []⟩

theorem witness_OpenCaseFillsSlot :
    let s := handed { set17 full17 [] with injector := ⟨some 5, 4294967294⟩ } 0x01 (openBytes 2999825 1120)
    let c := header 0 0x01 (openBytes 2999825 1120)
    let p := openRead 2999825 1120
    s.inHand 0x01 c ∧ s.clock.isSet = true ∧ readOpen c.params = some p ∧ p.valid = true ∧
      p.tr = s.clock.time + s.policy.futureSlack ∧ lookup p.card s = none ∧ s.injector.counter < 4294967295 ∧
      allocate p.card s = some 2048 := by unfold State.inHand; decide

/-- A Case Table in which no way of set 17 and no Spill List slot is free. -/
def fullTable : State :=
  { act with
    clock := ⟨1000, true⟩
    slots := full17 ++ (List.range 64).map (fun i => (2048 + i, ⟨0, some (opened (512 * i))⟩)) }

theorem witness_OpenCaseIsRefusedInOrder :
    (let s := handed act 0x01 (openBytes 5137 1000)
     s.inHand 0x01 (header 0 0x01 (openBytes 5137 1000)) ∧ s.clock.isSet = false) ∧
    (let s := handed (set17 [] []) 0x01 (openBytes 0 1000)
     let c := header 0 0x01 (openBytes 0 1000)
     s.inHand 0x01 c ∧ s.clock.isSet = true ∧ (readOpen c.params).filter (·.valid) = none) ∧
    (let s := handed (set17 [] []) 0x01 (openBytes 5137 1121)
     let c := header 0 0x01 (openBytes 5137 1121)
     s.inHand 0x01 c ∧ s.clock.isSet = true ∧ readOpen c.params = some (openRead 5137 1121) ∧
       (openRead 5137 1121).valid = true ∧ s.clock.time + s.policy.futureSlack < 1121) ∧
    (let s := handed (set17 full17 []) 0x01 (openBytes 5137 1120)
     s.inHand 0x01 (header 0 0x01 (openBytes 5137 1120)) ∧ (lookup 5137 s).isSome = true) ∧
    (let s := handed { set17 [] [] with injector := ⟨some 5, 4294967295⟩ } 0x01 (openBytes 5137 1120)
     s.inHand 0x01 (header 0 0x01 (openBytes 5137 1120)) ∧ lookup 5137 s = none ∧
       4294967295 ≤ s.injector.counter) ∧
    (let s := handed fullTable 0x01 (openBytes 2999825 1120)
     s.inHand 0x01 (header 0 0x01 (openBytes 2999825 1120)) ∧ lookup 2999825 s = none ∧
       s.injector.counter < 4294967295 ∧ allocate 2999825 s = none) := by
  unfold State.inHand; decide +kernel

/-- Whether a slot of `with69` is live. -/
theorem with69_caseAt (phase : Phase) (n : Nat) :
    (with69 act phase).caseAt n = if n = 69 then some (card70161 phase) else none := by
  by_cases h : n = 69 <;> simp [with69, State.caseAt, State.slotAt, SMap.getD, SMap.look, h, Ne.symm]

theorem with69_sound (phase : Phase) : (with69 act phase).caseTableSound := by
  refine ⟨by simp [with69], ?_, ?_, ?_⟩
  · intro n c h
    rw [with69_caseAt] at h
    split at h
    · next e => subst e; cases h; exact ⟨by decide, fun _ => by simp [homeSet, card70161]⟩
    · cases h
  · intro n m c d h1 h2 _
    rw [with69_caseAt] at h1 h2
    split at h1 <;> split at h2 <;> simp_all
  · intro set
    rw [show (with69 act phase).spillAt set = 0 from rfl, eq_comm, List.countP_eq_zero]
    intro n hn
    have : n ≠ 69 := by
      have := List.mem_range'_1.mp hn
      simp only [spillBase] at this
      omega
    simp [with69_caseAt, this]

theorem witness_LookupAndAllocation : (with69 act .listed).caseTableSound ∧ lookup 70161 (with69 act .listed) = some 69 :=
  ⟨with69_sound _, by decide⟩

theorem witness_HandlesAreChecked :
    let two : List (Instr × Byte × List Byte × List Byte) :=
      [(.cancelCase, 0x02, [8, 64, 0], [8, 63, 1]), (.acceptCase, 0x03, [8, 64, 0, 1], [8, 63, 1, 1]),
       (.bindCase, 0x04, [8, 64, 0, 0, 0, 0, 0, 0, 1, 0, 0, 0, 1], [8, 63, 1, 0, 0, 0, 0, 0, 1, 0, 0, 0, 1]),
       (.forceProgress, 0x05, [8, 64, 0], [8, 63, 1]), (.closeCase, 0x06, [8, 64, 0], [8, 63, 1])]
    (∀ x ∈ two,
      (handed act x.2.1 x.2.2.1).inHand x.2.1 (header 0 x.2.1 x.2.2.1) ∧ (readHandle x.2.2.1).slot = 2112 ∧
      (handed act x.2.1 x.2.2.2).inHand x.2.1 (header 0 x.2.1 x.2.2.2) ∧ (readHandle x.2.2.2).slot = 2111 ∧
      (handed act x.2.1 x.2.2.2).named (readHandle x.2.2.2) = none) ∧
    (handed act 0x07 [0, 8, 64, 0]).inHand 0x07 (header 0 0x07 [0, 8, 64, 0]) ∧ (readHandle [8, 64, 0]).slot = 2112 ∧
    (handed act 0x07 [0, 8, 63, 1]).inHand 0x07 (header 0 0x07 [0, 8, 63, 1]) ∧
    (handed act 0x07 [0, 8, 63, 1]).named (readHandle [8, 63, 1]) = none := by
  unfold State.inHand; decide

theorem witness_CancelCaseByPhase :
    ∀ p ∈ [Phase.opening, .listed, .anchored, .held, .bound, .settled, .stalled .listed, .stalled .bound, .voiding],
      let s := handed (with69 act p) 0x02 [0, 69, 4]
      s.inHand 0x02 (header 0 0x02 [0, 69, 4]) ∧ s.named (readHandle [0, 69, 4]) = some (card70161 p) := by
  unfold State.inHand; decide

theorem witness_ReadCaseAnswersSummary :
    (let s := handed { act with slots := [(2111, ⟨4, some (card70161 .held)⟩)], spill := [(17, 1)]
                                insertQueue := (crowded 62).insertQueue } 0x07 [0, 8, 63, 4]
     s.inHand 0x07 (header 0 0x07 [0, 8, 63, 4]) ∧ readCaseName (some [0, 8, 63, 4]) = some (.byHandle (s.handleAt 2111)) ∧
       s.caseAt 2111 = some (card70161 .held) ∧ s.calm = true ∧ s.placesAtOnce = true ∧ s.insertQueue.length < 63) ∧
    (let bs : List Byte := 1 :: beBytes 6 70161
     let s := handed (with69 act .held) 0x07 bs
     s.inHand 0x07 (header 0 0x07 bs) ∧ readCaseName (some bs) = some (.byCard 70161) ∧ lookup 70161 s = some 69 ∧
       s.caseAt 69 = some (card70161 .held) ∧ lookup 70161 (handed act 0x07 bs) = none ∧
       (handed act 0x07 bs).inHand 0x07 (header 0 0x07 bs)) ∧
    (let bs : List Byte := 1 :: beBytes 6 0
     (handed act 0x07 bs).inHand 0x07 (header 0 0x07 bs) ∧ readCaseName (some bs) = some (.byCard 0)) := by
  unfold State.inHand; decide

/-- The record of `aLoad`. -/
def theLoad (seq time : Nat) : CardRecord := ⟨70161, BitVec.ofNat 16 seq, time, 5, 2100, .load 3 100⟩

/-- An engine with the case of card 70161, and feed 5 ACTIVE with a sweep time of 900. -/
def fed (phase : Phase) : State := { with69 act phase with feeds := [(5, { active := true, sweep := 900 })] }

theorem witness_UnattributedRecordGoesOn :
    (let s := arrive { act with upQueue := List.replicate 255 aSweep } ⟨kindLoad, 0, [0], []⟩
     s.isActive = true ∧ s.upQueue.length < 256 ∧ s.mode = .attributing ∧
       (CardRecord.ofFrame ⟨kindLoad, 0, [0], []⟩).filter (·.valid) = none) ∧
    (let s := arrive act (aLoad 11 900)
     s.isActive = true ∧ s.mode = .attributing ∧ CardRecord.ofFrame (aLoad 11 900) = some (theLoad 11 900) ∧
       (theLoad 11 900).valid = true ∧ lookup 70161 s = none) ∧
    (let s := arrive { act with mode := .bypass } ⟨kindLoad, 0, [0, 0, 0, 1, 18], []⟩
     s.mode = .bypass ∧ [0, 0, 0, 1, 18].length < 6) ∧
    (let s := arrive { with69 act .held with mode := .bypass } (aLoad 11 900)
     s.mode = .bypass ∧ 6 ≤ (aLoad 11 900).body.length ∧ lookup (fieldAt 0 6 (aLoad 11 900).body) s = some 69 ∧
       s.caseAt 69 = some (card70161 .held)) := by decide +kernel

theorem witness_AttributedRecordReachesItsCase :
    ∀ time ∈ [900, 901, 1000, 1001],
      let s := arrive (fed .anchored) (aLoad 11 time)
      s.isActive = true ∧ s.mode = .attributing ∧ s.station.rx = aLoad 11 time :: [] ∧
        (aLoad 11 time).kind ∈ [kindUse, kindLoad, kindSale] ∧ s.upQueue.length < 256 ∧
        CardRecord.ofFrame (aLoad 11 time) = some (theLoad 11 time) ∧ (theLoad 11 time).valid = true ∧
        lookup 70161 s = some 69 ∧ s.caseAt 69 = some (card70161 .anchored) := by decide +kernel

/-- The case with the top place of its window taken. -/
def topped : CaseRecord := { card70161 .listed with window := ⟨11, [(42, ⟨2100, 100, true⟩)]⟩ }

theorem witness_DuplicateAndStaleRecords :
    (((42#16 : Count16) - topped.window.base).toNat = 31 ∧ (topped.window.at 31).isSome = true) ∧
    ((32779#16 : Count16) - topped.window.base).toNat = 32768 := by decide

theorem witness_PlacedRecordEntersTheWindow :
    topped.window.inRange = true ∧
    (((41#16 : Count16) - topped.window.base).toNat = 30 ∧ topped.window.at 30 = none) ∧
    ((43#16 : Count16) - topped.window.base).toNat = 32 ∧
    ((32778#16 : Count16) - topped.window.base).toNat = 32767 := by decide

theorem witness_PreReportRecordByPhase :
    ((theLoad 41 1000).seq - topped.window.base).toNat < 32 ∧
    topped.window.at ((theLoad 41 1000).seq - topped.window.base).toNat = none ∧
    ((theLoad 43 1000).seq - topped.window.base).toNat = 32 ∧ (theLoad 41 1000).time ≤ topped.tr := by decide

theorem witness_PostReportRecordEntersTally :
    ((theLoad 41 1001).seq - topped.window.base).toNat < 32 ∧
    topped.window.at ((theLoad 41 1001).seq - topped.window.base).toNat = none ∧
    ((theLoad 43 1001).seq - topped.window.base).toNat = 32 ∧ topped.tr < (theLoad 41 1001).time := by decide

theorem witness_SweepAdvancesItsFeed :
    (∀ f ∈ ([⟨kindSweep, 0, [3, 0, 0, 0], []⟩, sweepOf 64 1, sweepOf 63 1, sweepOf 7 40000300,
        sweepOf 7 40000301] : List Frame),
      let s := arrive engine411 f
      s.isActive = true ∧ s.station.rx = f :: [] ∧ f.kind = kindSweep ∧ s.upQueue.length < 256) ∧
    (sweepOf 64 1).body.length = 5 ∧ fieldAt 0 1 (sweepOf 64 1).body = 64 ∧
    fieldAt 0 1 (sweepOf 63 1).body = 63 ∧ (engine411.feedAt 63).active = false ∧
    (engine411.feedAt 7).active = true ∧ (engine411.feedAt 7).sweep = 40000300 ∧
    min (fieldAt 1 4 (sweepOf 7 40000301).body) (engine411.clock.time + engine411.policy.futureSlack) = 40000301 := by
  decide

theorem witness_ListackEntersItsRing :
    (∀ f ∈ ([⟨kindListack, 0, [3], []⟩, listackOf 64 1 1, listackOf 63 1 1, listackOf 7 8203 40000500,
        listackOf 7 8204 40000300, listackOf 7 8204 40000301] : List Frame),
      let s := arrive engine411 f
      s.isActive = true ∧ s.station.rx = f :: [] ∧ f.kind = kindListack ∧ s.upQueue.length < 256) ∧
    (listackOf 64 1 1).body.length = 13 ∧ fieldAt 0 1 (listackOf 64 1 1).body = 64 ∧
    (engine411.feedAt 63).active = false ∧ (engine411.feedAt 7).active = true ∧
    engine411.injector.epoch = some (fieldAt 1 4 (listackOf 7 8204 40000301).body) ∧
    (engine411.feedAt 7).highest = 8203 ∧ (engine411.feedAt 7).cleared = 8198 := by decide

theorem witness_ClearingAndMinima :
    ((⟨8199, 40000600⟩ : Ack) ∈ (engine411.feedAt 12).ring ∧ 40000600 ≤ ({ engine411.feedAt 12 with sweep := 40000600 } :
      Feed).sweep) ∧
    (∀ e ∈ act.feeds, e.2.active = false) ∧
    ((3, engine411.feedAt 3) ∈ engine411.feeds ∧ (engine411.feedAt 3).active = true) := by decide

theorem witness_HorizonNeverFalls :
    ∃ t, engine411.horizonSound ∧
      step { engine411 with pending := [.clockTick] } = .next t ∧ engine411.horizon.h ≤ t.horizon.h :=
  ⟨_, by unfold State.horizonSound; decide, rfl, by decide⟩

theorem witness_ClockIsSetAndAdvances :
    (let f : Frame := ⟨kindTime, 0, beBytes 4 1020, []⟩
     let s := hold { act with clock := ⟨1019, true⟩ } f
     s.isActive = true ∧ s.centre.rx = f :: [] ∧ f.kind = kindTime ∧ s.downQueue.length < 128 ∧ f.body.length = 4) ∧
    ({ act with clock := ⟨4294967295, true⟩ }.clock.isSet = true) ∧ act.clock.isSet = false := by decide

theorem witness_FeedCommands :
    (handed engine411 0x10 [63, 0, 0, 0, 1]).inHand 0x10 (header 0 0x10 [63, 0, 0, 0, 1]) ∧
    (handed engine411 0x10 [64, 0, 0, 0, 1]).inHand 0x10 (header 0 0x10 [64, 0, 0, 0, 1]) ∧
    (handed engine411 0x11 [7]).inHand 0x11 (header 0 0x11 [7]) ∧
    (handed engine411 0x11 [64]).inHand 0x11 (header 0 0x11 [64]) ∧
    (handed engine411 0x12 [63]).inHand 0x12 (header 0 0x12 [63]) := by unfold State.inHand; decide

theorem witness_WalkVisitsEachSlot :
    ∀ p ∈ [Phase.opening, .listed, .anchored, .held, .bound, .settled, .stalled .listed, .stalled .bound, .voiding],
      let s : State := { with69 act p with walk := some ⟨69, false⟩ }
      s.isActive = true ∧ s.walk = some ⟨69, false⟩ ∧ s.caseAt 69 = some (card70161 p) := by decide

theorem witness_AddAndRemoveInjected :
    (let s : State := { deltas 1 with station := { ready with tx := .delta ⟨⟨69, 4⟩, .add, 5, 10, some 70161⟩ } }
     s.station.tx = .delta ⟨⟨69, 4⟩, .add, 5, 10, some 70161⟩ ∧ s.named ⟨69, 4⟩ = some (card70161 .opening)) ∧
    (let s : State :=
       { with69 act .voiding with
         listQueue := [⟨⟨69, 4⟩, .remove, false⟩]
         station := { ready with tx := .delta ⟨⟨69, 4⟩, .remove, 5, 10, some 70161⟩ } }
     s.station.tx = .delta ⟨⟨69, 4⟩, .remove, 5, 10, some 70161⟩ ∧ (s.named ⟨69, 4⟩).isSome = true) := by decide

theorem witness_OfferFeeAndPurse :
    (plainOffer {} 50501 0 0).ceilingClamped = true ∧ (plainOffer {} 50501 0 0).excess = 1 ∧
    (plainOffer {} 50500 0 0).purse = 50000 ∧ (plainOffer {} 50500 0 0).ceilingClamped = false ∧
    (plainOffer {} (-500) 0 0).purse = -500 ∧ (plainOffer {} (-500) 0 0).floorClamped = false ∧
    (plainOffer {} (-501) 0 0).debt = 1 ∧ (plainOffer {} (-501) 0 0).floorClamped = true := by decide

theorem witness_ContractsInOffers :
    (productsA 7).kind = .carnet ∧ (⟨.rolling, .inKind, 0, 7, 0⟩ : Product).kind = .rolling ∧
    (⟨2, none, none, none, none, 0⟩ : Contract).validFrom = none ∧
    (⟨2, none, some 19795, none, none, 0⟩ : Contract).validFrom.isSome = true ∧ (productsA 41).kind = .calendar ∧
    1 ≤ ({ refundStep := 1 } : Policy).refundStep ∧ 1 ≤ (⟨.carnet, .inKind, 0, 1, 0⟩ : Product).total := by decide

theorem witness_AcceptCaseReleases :
    ∀ choice ∈ [0, 1, 2, 3], ∀ p ∈ [Phase.held, .anchored],
      let bs : List Byte := [0, 69, 4, choice]
      let s := handed (with69 act p) 0x03 bs
      s.inHand 0x03 (header 0 0x03 bs) ∧ bs.length = 4 ∧ s.named (readHandle bs) = some (card70161 p) := by
  unfold State.inHand; decide

theorem witness_PolicyIsSetAndRead :
    let bs : List Byte := [0, 1, 0, 0, 0]
    (handed act 0x20 bs).inHand 0x20 (header 0 0x20 bs) ∧
    readPolicy (some bs) = some ⟨some 0, none, none, none, none, none, none, none, none⟩ ∧
    (handed act 0x21 []).inHand 0x21 (header 0 0x21 []) := by unfold State.inHand; decide

theorem witness_ProductTableIsLoaded :
    (∀ bs ∈ ([[0, 255, 0, 255], [0, 255, 1, 0], [1, 0, 0, 0]] : List (List Byte)),
      (handed act 0x22 bs).inHand 0x22 (header 0 0x22 bs) ∧ bs.length = 4) ∧
    (let s := handed { act with cu := session810 250 } 0x23 entries810
     s.inHand 0x23 (header 0 0x23 entries810) ∧ (readProducts (some entries810)).isSome = true ∧
       s.cu.session = some ⟨250, 2, 250⟩) ∧
    ((handed act 0x23 entries810).inHand 0x23 (header 0 0x23 entries810) ∧
      (handed act 0x23 entries810).cu.session = none) ∧
    (3 < (⟨4, 1, 0, 10, 0⟩ : RawProduct).kind ∧ (⟨3, 1, 0, 255, 0⟩ : RawProduct).checked.isSome = true ∧
      (⟨3, 1, 0, 256, 0⟩ : RawProduct).checked = none) ∧
    (∀ bs ∈ ([[0, 255], [1, 0]] : List (List Byte)),
      (handed act 0x24 bs).inHand 0x24 (header 0 0x24 bs) ∧ bs.length = 2) := by
  unfold State.inHand; decide

theorem witness_BindForceAndClose :
    (∀ p ∈ [Phase.anchored, .held],
      let bs : List Byte := [0, 69, 4, 0, 0, 0, 0, 20, 17, 0, 0, 4, 0]
      let s := handed (with69 act p) 0x04 bs
      s.inHand 0x04 (header 0 0x04 bs) ∧ bs.length = 13 ∧ s.named (readHandle bs) = some (card70161 p)) ∧
    (∀ p ∈ [Phase.stalled .listed, .stalled .bound, .bound],
      let s := handed (with69 act p) 0x05 [0, 69, 4]
      s.inHand 0x05 (header 0 0x05 [0, 69, 4]) ∧ s.named (readHandle [0, 69, 4]) = some (card70161 p)) ∧
    (∀ p ∈ [Phase.settled, .bound],
      let s := handed (with69 act p) 0x06 [0, 69, 4]
      s.inHand 0x06 (header 0 0x06 [0, 69, 4]) ∧ s.named (readHandle [0, 69, 4]) = some (card70161 p)) := by
  unfold State.inHand; decide

theorem witness_EmissionsAreBuiltAndComplete :
    (with69 act .settled).named ⟨69, 4⟩ = some (card70161 .settled) ∧
    ({ with69 act .anchored with
        emissions := [⟨⟨69, 4⟩, .offer, true⟩]
        centre := { ready with tx := .emission ⟨69, 4⟩ .offer .unnamed true } }.centre.tx =
      .emission ⟨69, 4⟩ .offer .unnamed true) := by decide

/-- A STANDBY with a command for its own member in hand. -/
def standing (s : State) (code : Byte) (params : List Byte) : State := hold s (control 5 2 code params)

/-- An engine whose export is in progress. -/
def exporting (s : State) : State :=
  { s with cu := { busy := some ⟨.exportCases 0x1FE 69 2 0, 9, true, false⟩ } }

/-- A CONTROL record in which the complement is not the inverse of the code. -/
def garbled : Frame := ⟨kindControl, 0, [0, 0, 0x39, 0x39, 0, 7], []⟩

theorem witness_CodesAndLengthsAreChecked :
    (∀ x ∈ ([(garbled, ⟨0, 0x39, some 0x39, 7, some []⟩, .codeMismatch),
        (control 0 0 0x13 [], header 0 0x13 [], .unknownCommand)] : List (Frame × Control × Reason)),
      let s := hold act x.1
      s.control = some x.2.1 ∧ x.2.1.codeFault = some x.2.2 ∧ s.takesCommand = true ∧ s.isActive = true) ∧
    (let s := hold stand (control 5 2 0x13 [])
     s.control = some (header 2 0x13 []) ∧ (header 2 0x13 []).codeFault = some .unknownCommand ∧
       s.takesCommand = true ∧ s.isActive = false) ∧
    (∀ x ∈ ([(0x02, [1, 2]), (0x03, [1, 2, 3]), (0x04, []), (0x05, [1, 2, 3, 4]), (0x06, []), (0x10, [1]), (0x11, []),
        (0x12, [1, 2]), (0x21, [1]), (0x22, [1]), (0x24, [1]), (0x38, []), (0x39, [1]), (0x3A, [1]), (0x40, [1]),
        (0x41, [1])] : List (Byte × List Byte)),
      (handed act x.1 x.2).inHand x.1 (header 0 x.1 x.2) ∧ (handed act x.1 x.2).cu.busy = none) := by
  unfold State.inHand; decide +kernel

theorem witness_CodesAndLengthsAreChecked_more :
    ((handed (exporting act) 0x02 []).inHand 0x02 (header 0 0x02 []) ∧ (handed (exporting act) 0x02 []).cu.busy.isSome = true) ∧
    (∀ code ∈ ([0x39, 0x3A, 0x42, 0x43] : List Byte),
      (standing stand code [0]).standbyInHand code (header 2 code [0]) ∧ (standing stand code [0]).cu.busy = none) ∧
    (∀ bs ∈ ([[0], [0, 1, 0, 0], [0, 1, 0, 0, 0, 0], [1, 0]] : List (List Byte)),
      (handed act 0x20 bs).inHand 0x20 (header 0 0x20 bs) ∧ readPolicy (some bs) = none) ∧
    (∀ bs ∈ ([[], [0], [1, 3], 9 :: List.replicate 90 0] : List (List Byte)),
      (handed act 0x23 bs).inHand 0x23 (header 0 0x23 bs) ∧ readProducts (some bs) = none) ∧
    (∀ bs ∈ ([[], [0, 0, 69], [1, 0, 0, 0, 0, 0], [2, 0, 69, 4]] : List (List Byte)),
      (handed act 0x07 bs).inHand 0x07 (header 0 0x07 bs) ∧ readCaseName (some bs) = none) := by
  unfold State.inHand State.standbyInHand; decide +kernel

theorem witness_CommonConditionsInOrder :
    (∀ x ∈ catalogue,
      let s := hold act (control 0 3 x.2.1 [])
      s.control = some (header 3 x.2.1 []) ∧ (header 3 x.2.1 []).codeFault = none ∧ s.takesCommand = true) ∧
    (∀ x ∈ catalogue,
      let s := standing stand x.2.1 []
      s.control = some (header 2 x.2.1 []) ∧ (header 2 x.2.1 []).codeFault = none ∧ s.takesCommand = true ∧
        s.isActive = false) ∧
    ((.takeover, 0x42, .standbyOnly, true) ∈ catalogue ∧ (.openCase, 0x01, .activeOnly, false) ∈ catalogue ∧
      (.exportCases, 0x40, .activeOnly, true) ∈ catalogue) ∧
    (∀ x ∈ catalogue,
      let s := handed (exporting act) x.2.1 []
      s.control = some (header 0 x.2.1 []) ∧ s.takesCommand = true ∧ s.isActive = true ∧ s.cu.busy.isSome = true) := by
  decide +kernel

theorem witness_ModeAndStatus :
    (∀ code ∈ ([0, 1, 2, 3] : List Byte), (handed act 0x38 [code]).inHand 0x38 (header 0 0x38 [code])) ∧
    (handed act 0x39 []).inHand 0x39 (header 0 0x39 []) ∧
    (standing stand 0x39 []).standbyInHand 0x39 (header 2 0x39 []) ∧ (header 2 0x39 []).params = some [] := by
  unfold State.inHand State.standbyInHand; decide

theorem witness_EngineResetKeepsTables :
    (handed act 0x3A []).inHand 0x3A (header 0 0x3A []) ∧ (standing stand 0x3A []).standbyInHand 0x3A (header 2 0x3A []) ∧
    (let s := hold { lead with mirror := { lead.mirror with queue := [.handover 1] } } (control 5 0 0x3A [])
     s.inHand 0x3A (header 0 0x3A []) ∧ s.mirror.straps.pair = true ∧ s.mirror.queue.isEmpty = false) := by
  unfold State.inHand State.standbyInHand; decide

theorem witness_ExportReportsItsWindow :
    (∀ bs ∈ ([[0, 2, 8, 62, 0, 70], [0, 0, 0, 0, 0, 0], [0, 2, 8, 64, 0, 0], [2, 0, 0, 0, 0, 0]] : List (List Byte)),
      (handed act 0x40 bs).inHand 0x40 (header 0 0x40 bs) ∧ bs.length = 6) ∧
    (let s := handed (crowded 63) 0x40 [0, 2, 8, 62, 0, 70]
     s.inHand 0x40 (header 0 0x40 [0, 2, 8, 62, 0, 70]) ∧ s.cu.busy = none ∧ s.calm = true ∧ s.cu.waiting = [] ∧
       s.insertQueue.length < 64) ∧
    (let s := handed (crowded 64) 0x40 [0, 2, 8, 62, 0, 70]
     s.inHand 0x40 (header 0 0x40 [0, 2, 8, 62, 0, 70]) ∧ s.cu.busy = none ∧ 64 ≤ s.insertQueue.length) ∧
    (let s := exporting (with69 (crowded 64) .held)
     s.isActive = true ∧ s.cu.busy = some ⟨.exportCases 0x1FE 69 2 0, 9, true, false⟩ ∧
       ((s.caseAt 69).filter (fun x => (0x1FE#16 : BitVec 16).getLsbD x.phase.code)).isSome = true ∧
       64 ≤ s.insertQueue.length) ∧
    (let s := exporting (with69 (crowded 63) .held)
     s.isActive = true ∧ s.insertQueue.length < 64 ∧ s.cu.waiting = [] ∧ s.mirror.relayHold = [] ∧ s.calm = true) := by
  unfold State.inHand; decide +kernel

theorem witness_PairCommandsBegin :
    (let s := hold lead (control 5 0 0x41 [])
     s.inHand 0x41 (header 0 0x41 []) ∧ s.cu.busy = none ∧ s.mirror.straps.pair = true ∧ s.mirror.linkUp = true ∧
       s.mirror.writes = [] ∧ s.cu.waiting = [] ∧ s.insertQueue.length < 64 ∧ s.mirror.queue.length < 128) ∧
    (handed act 0x41 []).inHand 0x41 (header 0 0x41 []) ∧
    (let s := standing stand 0x42 []
     s.standbyInHand 0x42 (header 2 0x42 []) ∧ s.cu.busy = none ∧ s.mirror.linkUp = true ∧
       s.mirror.currency = .current ∧ s.mirror.relayList.length < 8) ∧
    (let s := standing stand 0x43 []
     s.standbyInHand 0x43 (header 2 0x43 []) ∧ s.cu.busy = none ∧ s.cu.waiting = [] ∧ s.mirror.relayList.length < 8) := by
  unfold State.inHand State.standbyInHand; decide

/-- An answer that waits. -/
def anAnswer : Answer := .response ⟨9, 0x40, 0, .reply (.exporting 0x1FE 69 70 2)⟩

theorem witness_PlacesAreTakenInOrder :
    (let s : State := { crowded 63 with cu := { waiting := [anAnswer] } }
     s.isActive = true ∧ s.insertQueue.length < 64 ∧ s.cu.waiting = anAnswer :: []) ∧
    (let s : State :=
       { crowded 63 with cu := { waiting := [anAnswer], busy := some ⟨.exportCases 0x1FE 69 2 0, 9, false, false⟩ } }
     s.isActive = true ∧ s.insertQueue.length < 64 ∧ s.cu.waiting = anAnswer :: [] ∧
       s.cu.busy = some ⟨.exportCases 0x1FE 69 2 0, 9, false, false⟩) ∧
    (∀ up ∈ [true, false], ∀ queued ∈ [127, 128],
      let s : State :=
        { lead with
          insertQueue := (crowded 63).insertQueue
          cu := { waiting := [anAnswer], busy := some ⟨.resync, 9, false, false⟩ }
          mirror := { lead.mirror with linkUp := up, queue := List.replicate queued (.handover 0) } }
      s.isActive = true ∧ s.insertQueue.length < 64 ∧ s.cu.waiting = anAnswer :: [] ∧
        s.cu.busy = some ⟨.resync, 9, false, false⟩ ∧ s.mirror.linkUp = up ∧ s.mirror.writes = [] ∧
        s.mirror.queue.length = queued) ∧
    (let s : State := { crowded 63 with mirror := { act.mirror with relayHold := [anAnswer] } }
     s.isActive = true ∧ s.insertQueue.length < 64 ∧ s.cu.waiting = [] ∧ s.mirror.relayHold = anAnswer :: []) := by
  decide +kernel

/-- Sixteen masks, the first MASKED. -/
def someMasks : List Byte := 1 :: List.replicate 15 2

/-- The classes that come before LATE_RECORD in the cyclic order after FEED_BREACH. -/
def passedOver : List NoticeClass := noticeClasses.drop 6 ++ noticeClasses.take 3

theorem witness_NoticesAreMaskedClearedAndEmitted :
    ((handed act 0x30 someMasks).inHand 0x30 (header 0 0x30 someMasks) ∧
      readMasks (some someMasks) = some (true :: List.replicate 15 false)) ∧
    ((handed act 0x30 [1]).inHand 0x30 (header 0 0x30 [1]) ∧ readMasks (some [1]) = none) ∧
    ((handed act 0x31 [2, 16, 1]).inHand 0x31 (header 0 0x31 [2, 16, 1]) ∧
      readClasses (some [2, 16, 1]) = some [.tableFullSeen, .caseHeld]) ∧
    ((handed act 0x31 [1, 17]).inHand 0x31 (header 0 0x31 [1, 17]) ∧ readClasses (some [1, 17]) = none) ∧
    (let s : State := { engine97 with insertQueue := (crowded 63).insertQueue }
     s.isActive = true ∧ s.mirror.drain = none ∧ s.insertQueue.length < 64 ∧ s.cu.waiting = [] ∧
       s.mirror.relayHold = [] ∧ s.exportWaits = false ∧
       noticeClasses.drop s.notices.pointer.code ++ noticeClasses.take s.notices.pointer.code =
         passedOver ++ NoticeClass.lateRecord :: [NoticeClass.blockedUse, NoticeClass.feedBreach] ∧
       (∀ x ∈ passedOver, (s.noticeAt x).masked = true ∨ (s.noticeAt x).count = 0) ∧
       (s.noticeAt .lateRecord).masked = false ∧ 0 < (s.noticeAt .lateRecord).count) ∧
    64 ≤ (crowded 64).insertQueue.length := by
  unfold State.inHand; decide +kernel

/-- A STANDBY at a stage on the Hold and Force lines, with a busy command. -/
def atStage (stage : HoldStage) (currency : Currency) (busy : Option Busy) : State :=
  { stand with mirror := { stand.mirror with stage := stage, currency := currency }, cu := { busy := busy } }

theorem witness_HoldAndForceStages :
    (atStage .delay .stale none).mirror.stage = .delay ∧ (atStage (.waiting .forced) .stale none).mirror.stage = .waiting .forced ∧
    (atStage .pulsing .stale none).mirror.stage = .pulsing ∧
    (∀ cause ∈ [ClaimCause.startup, .handover .current, .handover .stale, .forced], ∀ y ∈ [Currency.current, .stale],
      let s := atStage (.claiming cause) y none
      s.isActive = false ∧ s.mirror.writes = [] ∧ s.cu.waiting = [] ∧ s.endsBusy cause = false ∧
        s.mirror.stage = .claiming cause) ∧
    (∀ held ∈ [Currency.current, .stale],
      let s := atStage (.waiting (.handover held)) held (some ⟨.takeover true, 7, true, false⟩)
      s.isActive = false ∧ s.cu.busy = some ⟨.takeover true, 7, true, false⟩ ∧
        s.mirror.stage = .waiting (.handover held)) ∧
    (∀ y ∈ [Currency.current, .stale],
      let s := atStage (.claiming .forced) y (some ⟨.forcedTakeover y, 7, true, false⟩)
      s.isActive = false ∧ s.mirror.writes = [] ∧ s.cu.waiting = [] ∧
        s.cu.busy = some ⟨.forcedTakeover y, 7, true, false⟩ ∧ s.mirror.stage = .claiming .forced ∧
        s.mirror.currency = y) ∧
    stand.mirror.straps.pair = true ∧ (39 < 40 ∨ 60 < 39) ∧ (61 < 40 ∨ 60 < 61) := by decide

theorem witness_ClaimMakesActive :
    (∀ held ∈ [Currency.current, .stale],
      let s := with69 (atStage (.claiming (.handover held)) .current (some ⟨.takeover true, 7, true, false⟩)) .voiding
      s.isActive = false ∧ s.mirror.stage = .claiming (.handover held) ∧ SMap.sorted s.slots ∧
        s.cu.busy = some ⟨.takeover true, 7, true, false⟩ ∧ s.mirror.straps.pair = true ∧ s.mirror.writes = [] ∧
        s.mirror.copy = none ∧ (∀ e ∈ s.slots, e.1 < 2112) ∧
        s.cu.busy.all (fun b => b.begun || b.ended) = true ∧
        s.mirror.queue.length + ((s.noticeWrite .roleChange (.line .hold)).flatMap TableWrite.payloads).length ≤ 128) ∧
    (let s : State :=
       { stand with
         mirror := { stand.mirror with stage := .claiming (.handover .current), queue := List.replicate 128 (.handover 0) } }
     s.mirror.queue.length ≤ 128 ∧
       128 < s.mirror.queue.length + ((s.noticeWrite .roleChange (.line .hold)).flatMap TableWrite.payloads).length) ∧
    (let s := with69 (atStage (.claiming .startup) .stale none) .voiding
     s.isActive = false ∧ s.mirror.stage = .claiming .startup ∧ SMap.sorted s.slots ∧ s.mirror.writes = [] ∧
       s.mirror.copy = none ∧ s.cu.busy = none) := by decide +kernel

/-- A copy with this many items placed. -/
def copying (items : Nat) (queued : Nat) : State :=
  { lead with
    mirror := { lead.mirror with
      copy := some ⟨true, items, false⟩
      queue := List.replicate queued (.write ⟨0, true, true, .copyBegin⟩) } }

/-- An ACTIVE engine of a pair whose drain runs. -/
def draining (expired : Bool) (queue : List QueuedMessage) : State :=
  { lead with
    station := { heldGrant := some 0 }, centre := { heldGrant := some 0 }
    mirror := { lead.mirror with currency := .current, drain := some expired, queue := queue } }

theorem witness_DrainHandsOver :
    (let s : State := exporting { lead with mirror := { lead.mirror with currency := .current } }
     s.mirror.straps.pair = true ∧ s.isActive = true ∧ s.mirror.drain = none ∧
       s.cu.busy = some ⟨.exportCases 0x1FE 69 2 0, 9, true, false⟩) ∧
    (let s := draining false []
     s.isActive = true ∧ s.mirror.drain = some false ∧ s.mirror.queue = [] ∧ s.station.heldGrant = some s.station.nr ∧
       s.centre.heldGrant = some s.centre.nr ∧ s.upQueue = [] ∧ s.downQueue = [] ∧ s.insertQueue = [] ∧
       s.mirror.relayHold = [] ∧ s.station.tx = .idle ∧ s.centre.tx = .idle ∧ s.station.rx = [] ∧ s.centre.rx = []) ∧
    (let s : State := { draining false [] with upQueue := [aSweep] }
     s.mirror.drain = some false ∧ s.upQueue ≠ []) ∧
    (let s := draining false [.write ⟨0, true, false, .write (.policy {}) 0 1⟩]
     s.isActive = true ∧ s.mirror.drain = some false ∧ s.mirror.queue ≠ []) := by decide

theorem witness_ForcePulseResets : lead.mirror.straps.pair = true ∧ 40 ≤ 40 ∧ 60 ≤ 60 ∧ lead.isActive = true := by decide

theorem witness_PairLinkAndMessages :
    (lead.mirror.straps.pair = true ∧ lead.isActive = true ∧ lead.mirror.tx = none ∧ lead.mirror.drain = none ∧
      lead.mirror.copy = none ∧ lead.mirror.writes = [] ∧ lead.cu.waiting = [] ∧ lead.mirror.linkUp = true ∧
      lead.mirror.currency = .stale) ∧
    (stand.mirror.straps.pair = true ∧ stand.isActive = false ∧ stand.mirror.writes = [] ∧
      stand.mirror.linkUp = true ∧ stand.cu.waiting = []) ∧
    (let s := atStage .settled .current (some ⟨.takeover false, 7, true, false⟩)
     s.isActive = false ∧ s.mirror.writes = [] ∧ s.cu.waiting = [] ∧
       s.cu.busy = some ⟨.takeover false, 7, true, false⟩ ∧ s.awaitsHandover = true) ∧
    (let s := draining false []
     s.mirror.straps.pair = true ∧ s.isActive = true ∧ s.mirror.linkUp = true ∧ s.mirror.writes = [] ∧
       s.cu.waiting = [] ∧ s.mirror.currency = .current ∧ s.mirror.copy = none ∧ s.mirror.drain = some false) ∧
    (let s : State := { draining true [] with mirror := { (draining true []).mirror with currency := .stale } }
     s.mirror.currency = .stale ∧ s.mirror.copy = none ∧ s.mirror.drain = some true) ∧
    (let s : State := { copying 2454 128 with cu := { busy := some ⟨.resync, 7, true, false⟩ } }
     s.isActive = true ∧ s.mirror.linkUp = true ∧ s.mirror.writes = [] ∧ s.cu.waiting = [] ∧
       s.mirror.copy = some ⟨true, 2454, false⟩ ∧ s.cu.busy = some ⟨.resync, 7, true, false⟩) ∧
    (let s : State :=
       { stand with cu := { waiting := [anAnswer], busy := some ⟨.takeover false, 7, false, false⟩ } }
     s.isActive = false ∧ s.mirror.linkUp = true ∧ s.mirror.writes = [] ∧
       s.cu.busy = some ⟨.takeover false, 7, false, false⟩) := by decide +kernel

/-- A STANDBY whose relay list is full, its first relay in transmission, and whose Command Unit holds an answer and a
busy command. -/
def crammed (a : Answer) (b : Busy) : State :=
  { stand with
    cu := { waiting := [a], busy := some b }
    mirror := { stand.mirror with
      tx := some (.relay anAnswer true), relayList := List.replicate 8 anAnswer, currency := .stale, copyRx := .taking
      expected := 7 } }

/-- R169, R170: when the link goes DOWN in the middle of a copy, the answers are lost and the copy goes on; so a wrong
number that comes then is a gap of the copy, and its COPY END makes the STANDBY CURRENT. -/
theorem test_copy_goes_on_after_link_down :
    ((next (exec .pairLinkDown (crammed anAnswer ⟨.takeover true, 9, true, false⟩))).map
      (fun t => (t.mirror.copyRx, t.mirror.expected, t.mirror.relayList, t.cu.waiting))) = some (.taking, 7, [], []) ∧
    ((next (exec (.mirrorWrite true ⟨8, true, true, .copyEnd⟩) (crammed anAnswer ⟨.takeover true, 9, true, false⟩))).map
      (fun t => (t.mirror.currency, t.mirror.copyRx, t.mirror.stopDue))) = some (.stale, .missed, true) ∧
    ((next (exec (.mirrorWrite true ⟨7, true, true, .copyEnd⟩) (crammed anAnswer ⟨.takeover true, 9, true, false⟩))).map
      (fun t => (t.mirror.currency, t.mirror.copyRx, t.mirror.stopDue))) = some (.current, .idle, false) := by
  decide +kernel

/-- R169: a copy step of a wrong number is a gap also where its COPY BEGIN was lost, on a CURRENT and on a STALE STANDBY;
an ordinary write is disregarded by a STALE one, and after the gap so is every message. -/
theorem test_copy_step_without_begin :
    ((next (exec (.mirrorWrite true ⟨5, true, true, .write (.policy {}) 0 1⟩) stand)).map
      (fun t => (t.mirror.currency, t.mirror.copyRx, t.mirror.tx))) = some (.stale, .missed, some .stop) ∧
    (∀ (x : CopyTaking × Bool × CopyTaking × Option PairTx),
      x ∈ ([(.idle, true, .missed, some .stop), (.idle, false, .idle, none), (.missed, true, .missed, none)] :
        List (CopyTaking × Bool × CopyTaking × Option PairTx)) →
      ((next (exec (.mirrorWrite true ⟨5, true, x.2.1, .write (.policy {}) 0 1⟩)
          { stand with mirror := { stand.mirror with currency := .stale, copyRx := x.1 } })).map
        (fun t => (t.mirror.copyRx, t.mirror.tx))) = some (x.2.2.1, x.2.2.2)) := by decide

/-- R164, R170: the oldest answer that waits takes the place of a relay that has been sent. -/
theorem test_waiting_answer_takes_the_place :
    ((next (exec .pairMessageSent (crammed (.completion ⟨9, 0x42, 1, true, 0, none⟩) ⟨.takeover true, 9, true, true⟩))).map
      (fun t => (t.mirror.relayList.length, t.mirror.relayList.getLast?, t.cu.busy, t.mirror.tx))) =
      some (8, some (.completion ⟨9, 0x42, 1, true, 0, none⟩), none, some (.relay anAnswer true)) := by decide +kernel

theorem witness_crammed :
    (∀ b ∈ ([⟨.takeover true, 9, true, false⟩, ⟨.takeover false, 9, false, false⟩,
        ⟨.forcedTakeover .current, 9, false, false⟩] : List Busy),
      let s := crammed anAnswer b
      s.mirror.straps.pair = true ∧ s.isActive = false ∧ s.mirror.linkUp = true ∧ s.mirror.writes = [] ∧
        s.mirror.tx = some (.relay anAnswer true) ∧ (PairTx.relay anAnswer true).isCopyEnd = false ∧
        s.mirror.relayList.length = 8 ∧ s.cu.waiting = [anAnswer] ∧ s.cu.busy = some b ∧ b.ended = false ∧
        (∃ r, anAnswer = .response r)) ∧
    (∀ m ∈ ([.stop, .yieldRequest, .presence, .queued (.handover 7), .relay anAnswer false] : List PairTx),
      let s : State := { stand with mirror := { stand.mirror with tx := some m } }
      s.mirror.tx = some m ∧ m.isCopyEnd = false ∧ s.isActive = false ∧ s.cu.waiting = [] ∧ s.mirror.writes = []) := by
  refine ⟨?_, by decide⟩
  intro b hb
  refine ⟨rfl, rfl, rfl, rfl, rfl, rfl, rfl, rfl, rfl, ?_, _, rfl⟩
  revert b
  decide

/-- An ACTIVE engine that mirrors. -/
def mirrors (s : State) : State :=
  { s with mirror := { lead.mirror with currency := .current }, clock := ⟨1000, true⟩ }

theorem witness_mirroring :
    (let s : State :=
       { mirrors act with
         slots := [(69, ⟨4, some { card70161 .bound with flags := { tallyFinal := true } }⟩)], walk := some ⟨69, false⟩ }
     s.mirroring ∧ s.walk = some ⟨69, false⟩ ∧
       s.caseAt 69 = some { card70161 .bound with flags := { tallyFinal := true } }) ∧
    (let f : Frame := ⟨kindTime, 0, beBytes 4 1001, []⟩
     let s := hold (mirrors act) f
     s.mirroring ∧ s.centre.rx = f :: [] ∧ f.kind = kindTime ∧ f.body.length = 4 ∧
       s.clock.time < fieldAt 0 4 f.body) ∧
    (let s := arrive (mirrors { act with feeds := [(63, { active := true, sweep := 1119 })] }) (sweepOf 63 1200)
     s.mirroring ∧ s.station.rx = sweepOf 63 1200 :: [] ∧ (s.feedAt 63).active = true ∧
       (s.feedAt 63).sweep < min 1200 (s.clock.time + s.policy.futureSlack)) ∧
    (let s := arrive (mirrors (fed .listed)) (aLoad 11 901)
     s.mirroring ∧ s.mode = .attributing ∧ CardRecord.ofFrame (aLoad 11 901) = some (theLoad 11 901) ∧
       (theLoad 11 901).valid = true ∧ lookup 70161 s = some 69 ∧ (s.feedAt 5).active = true ∧
       (s.feedAt 5).sweep < 901 ∧
       (measured s.policy.owned s.injector (s.feedAt 5) (theLoad 11 901) (card70161 .listed)).lateRecord = false ∧
       (measured s.policy.owned s.injector (s.feedAt 5) (theLoad 11 901) (card70161 .listed)).blockedUse = false) ∧
    (∀ x ∈ ([(0x20, [0, 1, 0, 0, 0]), (0x23, entries810), (0x01, openBytes 70161 1120)] : List (Byte × List Byte)),
      let s := hold (mirrors { act with cu := session810 250 }) (control 5 0 x.1 x.2)
      s.mirroring ∧ s.inHand x.1 (header 0 x.1 x.2) ∧ s.cu.busy = none ∧ s.cu.session = some ⟨250, 2, 250⟩ ∧
        s.clock.isSet = true ∧ lookup 70161 s = none ∧ allocate 70161 s = some 68 ∧ s.injector.counter < 4294967295) ∧
    (let s : State :=
       { with69 (mirrors act) .voiding with
         listQueue := [⟨⟨69, 4⟩, .remove, false⟩]
         station := { ready with tx := .delta ⟨⟨69, 4⟩, .remove, 5, 10, some 70161⟩ } }
     s.mirroring ∧ (s.named ⟨69, 4⟩).isSome = true) := by
  unfold State.mirroring State.inHand; decide +kernel

/-- An engine that mirrors takes a command with its Insert Queue one place short of full and a COMPLETION waiting: the
COMPLETION has the place and ends its busy command, the RESPONSE waits, the masks are written, and the view stays. -/
theorem witness_answeredWith :
    let done : Answer := .completion ⟨9, 0x40, 0, true, 2, none⟩
    let s : State :=
      hold { mirrors act with
             insertQueue := (crowded 63).insertQueue
             cu := { waiting := [done], busy := some ⟨.exportCases 0x1FE 69 0 2, 9, true, true⟩ } }
        (control 5 0 0x30 someMasks)
    s.inHand 0x30 (header 0 0x30 someMasks) ∧ s.calm = false ∧
      s.cu.busy.all (fun b => b.begun || b.ended) = true ∧ s.mirror.writes = [] ∧
      ((next (exec .setNoticeMask s)).map
        (fun t => (t.mirror.currency, t.mirror.copy, t.insertQueue.length, t.insertQueue.getLast?))) =
        some (.current, none, 64, some (.answer done)) ∧
      ((next (exec .setNoticeMask s)).map (fun t => (t.cu.waiting.length, t.cu.busy, (t.noticeAt .caseHeld).masked))) =
        some (1, none, true) := by
  unfold State.inHand; decide +kernel

theorem witness_GroupsAndCopySteps :
    (lead.mirror.queue.length + (lead.mirror.writes.flatMap TableWrite.payloads).length ≤ 128) ∧
    (let s : State :=
       { copying 0 128 with mirror := { (copying 0 128).mirror with copy := none, writes := [.policy {}] } }
     s.mirror.queue.length ≤ 128 ∧ 128 < s.mirror.queue.length + (s.mirror.writes.flatMap TableWrite.payloads).length ∧
       s.cu.busy = none ∧ s.mirror.copy = none) ∧
    (let s : State := { lead with mirror := { lead.mirror with tx := some .presence } }
     s.mirror.tx = some .presence ∧ PairTx.presence.isCopyEnd = false ∧ s.isActive = true) ∧
    (let m : PairTx := .queued (.write ⟨0, true, true, .copyEnd⟩)
     let s : State :=
       { lead with
         cu := { busy := some ⟨.resync, 7, true, false⟩ }
         mirror := { lead.mirror with tx := some m, copy := some ⟨true, 2454, true⟩ } }
     s.mirror.tx = some m ∧ m.isCopyEnd = true ∧ s.mirror.copy = some ⟨true, 2454, true⟩ ∧ s.isActive = true ∧
       s.cu.busy = some ⟨.resync, 7, true, false⟩ ∧ s.mirror.writes = []) ∧
    (let s := copying 2454 128
     s.mirror.straps.pair = true ∧ s.isActive = true ∧ s.mirror.copy = some ⟨true, 2454, false⟩ ∧
       128 < s.mirror.queue.length + [Payload.copyEnd].length) ∧
    (let s := copying 0 127
     s.mirror.copy = some ⟨true, 0, false⟩ ∧ s.mirror.queue.length + (copyPayloads 0 s).length ≤ 128) ∧
    (∀ n ∈ [127, 128],
      let s : State := { copying 0 n with mirror := { (copying 0 n).mirror with copy := some ⟨false, 0, false⟩ } }
      s.mirror.straps.pair = true ∧ s.isActive = true ∧ s.mirror.copy = some ⟨false, 0, false⟩ ∧
        s.mirror.queue.length = n) := by
  decide +kernel

theorem witness_StandbyTakesMirrorWrites :
    stand.mirror.straps.pair = true ∧ stand.isActive = false ∧ stand.mirror.writes = [] ∧
    stand.mirror.currency = .current ∧ (⟨0, true, false, .write (.policy {}) 0 1⟩ : MirrorWrite).number = stand.mirror.expected ∧
    (atStage .settled .stale none).mirror.currency = .stale ∧ 0 + 1 = 1 ∧ 0 + 1 ≠ 2 ∧
    (let s := crammed anAnswer ⟨.takeover true, 9, true, false⟩
     s.mirror.currency = .stale ∧ s.mirror.copyRx = .taking ∧ s.mirror.expected = 7) ∧
    stand.mirror.copyRx = .idle := by decide

/-- A full Insert Queue, and a tick of the clock to come. -/
def brimming : State := { crowded 64 with pending := [.clockTick] }

theorem witness_CapacitiesAreKept :
    brimming.withinCapacity ∧ brimming.holdSound ∧ next (step brimming) = some (crowded 64) := by
  refine ⟨⟨?_, ?_, ?_, ?_, ?_, ?_, ?_, ?_, ?_, ?_⟩, ⟨?_, ?_⟩, ?_⟩ <;> decide +kernel

/-- A case in OPENING with its ADD in transmission, and one in SETTLED with its SETTLEMENT waiting. -/
def listed : State :=
  { act with
    slots := [(69, ⟨4, some (card70161 .opening)⟩), (2111, ⟨0, some { card70161 .settled with card := 5137 }⟩)]
    feeds := [(63, { active := true, ring := List.replicate 8 ⟨1, 0⟩ })]
    listQueue := [⟨⟨69, 4⟩, .add, false⟩]
    emissions := [⟨⟨2111, 0⟩, .settlement, false⟩]
    station := { ready with tx := .delta ⟨⟨69, 4⟩, .add, 5, 10, some 70161⟩ } }

theorem witness_listsSound :
    { listed with pending := [.clockTick] }.listsSound ∧ { listed with pending := [.clockTick] }.ringsSound ∧
    { listed with pending := [.clockTick] }.policySound ∧
    next (step { listed with pending := [.clockTick] }) = some listed := by
  refine ⟨⟨by decide, by decide, ?_, ?_, by decide, ?_⟩, by unfold State.ringsSound; decide,
    by unfold State.policySound; decide, by decide⟩
  · intro e he
    obtain rfl : e = ⟨⟨69, 4⟩, .add, false⟩ := by simpa [listed] using he
    exact ⟨card70161 .opening, by decide, by decide⟩
  · intro d hd
    obtain rfl : (⟨⟨69, 4⟩, .add, 5, 10, some 70161⟩ : Delta) = d := by simpa [listed] using hd
    exact ⟨by decide, _, rfl, by decide, by decide⟩
  · intro e he
    obtain rfl : e = ⟨⟨2111, 0⟩, .settlement, false⟩ := by simpa [listed] using he
    exact ⟨{ card70161 .settled with card := 5137 }, by decide, fun _ => rfl⟩

theorem reset_conserved : State.reset.conserved := by
  refine ⟨?_, ?_, ?_, ?_⟩
  · intro f h; cases h
  · intro f h; cases h
  · intro _; exact ⟨fun _ _ _ => rfl, fun _ _ _ => rfl⟩
  · intro h; cases h

theorem witness_RecordsAreConserved :
    { State.reset with pending := [.clockTick] }.conserved ∧ { State.reset with pending := [.clockTick] }.holdSound ∧
    next (step { State.reset with pending := [.clockTick] }) = some State.reset :=
  ⟨reset_conserved, by unfold State.holdSound; decide, by decide⟩

theorem witness_HoldFollowsRole :
    (atStage (.waiting (.handover .current)) .current none).holdSound ∧
    (next (step { atStage (.waiting (.handover .current)) .current none with pending := [.partnerHoldReleased] })).isSome = true := by
  unfold State.holdSound; decide

theorem witness_TablesStayInForm :
    (∀ i ∈ { engine411 with pending := [.clockTick] }.pending, i.wf = true) ∧
    { engine411 with pending := [.clockTick] }.policySound ∧ { engine411 with pending := [.clockTick] }.canonical ∧
    (next (step { engine411 with pending := [.clockTick] })).isSome = true := by
  unfold State.policySound State.canonical; decide

theorem witness_CaseTableStaysSound :
    (with69 act .listed).caseTableSound ∧
    next (step { with69 act .listed with pending := [.clockTick] }) = some (with69 act .listed) :=
  ⟨with69_sound _, by decide⟩

theorem witness_FramesReadBack : aSweep.wf ∧ Frame.ofBytes aSweep.toBytes = some aSweep := by decide +kernel

end Sys2Proof.Tests
end

/-! The conservation of records (R19). What R19 counts of a line is a `Lane`, and a state's two lanes with its
role are its `Flow`. `Lane.Moves` lists everything an event can do to a lane; every move keeps a lane sound, and every
command moves both lanes. Most operations keep the flow, which one lemma for each says. -/

namespace Sys2Proof.Machine

/-! ### Lanes and flows -/

/-- The forwarded record a transmitter is sending, if it sends one (R4). -/
def Tx.record : Tx → Option Frame
  | .forwarded f => some f
  | _ => none

theorem Tx.record_eq_some {t : Tx} {f : Frame} : t.record = some f ↔ t = .forwarded f := by
  cases t <;> simp [Tx.record]

/-- What R19 counts of a line, and the forward queue that the line feeds with what is sent from it. -/
structure Lane where
  good : Nat := 0
  consumed : Nat := 0
  forwarded : Nat := 0
  buffer : List Frame := []
  queue : List Frame := []
  sending : Option Frame := none

/-- The lane from a line's own port through the queue it feeds to the other line's port. -/
def Lane.between (own other : Port) (q : List Frame) : Lane :=
  ⟨own.counters.good, own.counters.consumed, other.counters.forwarded, own.rx, q, other.tx.record⟩

/-- The engine's role and its two lanes: up from the Station Line, down from the Centre Line. -/
structure Flow where
  active : Bool
  up : Lane := {}
  down : Lane := {}

/-- The flow of a state. -/
def State.flow (s : State) : Flow :=
  ⟨s.isActive, .between s.station s.centre s.upQueue, .between s.centre s.station s.downQueue⟩

/-- The law of R19 (`lineLaw`). -/
def Lane.conserved (x : Lane) : Prop :=
  x.good < max32 → x.forwarded < max32 → x.consumed < max32 →
    x.good = x.forwarded + x.consumed + x.buffer.length + x.queue.length

/-- What `State.conserved` asks of a lane. -/
structure Lane.Sound (active : Bool) (x : Lane) : Prop where
  head : ∀ f, x.sending = some f → x.queue.head? = some f
  law : active = true → x.conserved
  empty : active = false → x.queue = []

theorem conserved_iff {s : State} :
    s.conserved ↔ s.flow.up.Sound s.flow.active ∧ s.flow.down.Sound s.flow.active := by
  constructor
  · rintro ⟨hup, hdown, hlaw, hempty⟩
    exact ⟨⟨fun f hf => hup f (Tx.record_eq_some.mp hf), fun ha => (hlaw ha).1, fun ha => (hempty ha).1⟩,
      ⟨fun f hf => hdown f (Tx.record_eq_some.mp hf), fun ha => (hlaw ha).2, fun ha => (hempty ha).2.1⟩⟩
  · rintro ⟨⟨hup, lup, eup⟩, ⟨hdown, ldown, edown⟩⟩
    have hup' : forwardsHead s.centre.tx s.upQueue := fun f hf => hup f (Tx.record_eq_some.mpr hf)
    have hdown' : forwardsHead s.station.tx s.downQueue := fun f hf => hdown f (Tx.record_eq_some.mpr hf)
    refine ⟨hup', hdown', fun ha => ⟨lup ha, ldown ha⟩, fun ha => ?_⟩
    have qup : s.upQueue = [] := eup ha
    have qdown : s.downQueue = [] := edown ha
    exact ⟨qup, qdown, fun f hf => by simpa [qdown] using hdown' f hf,
      fun f hf => by simpa [qup] using hup' f hf⟩

/-! ### What an event can do to a lane -/

/-- A good frame is buffered (R1). -/
def Lane.receive (f : Frame) (x : Lane) : Lane := { x with good := bump32 x.good, buffer := x.buffer ++ [f] }

/-- The oldest frame of the buffer goes into the forward queue as `f` (R8, R11). -/
def Lane.enqueue (f : Frame) (x : Lane) : Lane := { x with buffer := x.buffer.tail, queue := x.queue ++ [f] }

/-- The oldest frame of the buffer is a consumed CONTROL record (R10, R18). -/
def Lane.consume (x : Lane) : Lane := { x with buffer := x.buffer.tail, consumed := bump32 x.consumed }

/-- The transmitter sends no forwarded record, whatever it was sending (R4, R5). -/
def Lane.hush (x : Lane) : Lane := { x with sending := none }

/-- The forwarded record in transmission completes and leaves its queue (R4, R18). -/
def Lane.complete (x : Lane) : Lane :=
  { x with sending := none, queue := x.queue.tail, forwarded := bump32 x.forwarded }

/-- The counters restart, and the frames kept in the buffer are counted good (R18). -/
def Lane.activate (x : Lane) : Lane := { x with good := x.buffer.length, consumed := 0, forwarded := 0 }

/-- The buffer and the queue are emptied and the transmission is cut; the counters stay (R6, R7). -/
def Lane.cease (x : Lane) : Lane := { x with buffer := [], queue := [], sending := none }

/-- Everything an event can do to a lane, with the role before and after it. -/
inductive Lane.Moves (x : Lane) : Bool → Bool → Lane → Prop where
  | stay {a : Bool} : Moves x a a x
  | receive (f : Frame) : Moves x true true (x.receive f)
  | keep (b : List Frame) : Moves x false false { x with buffer := b }
  | enqueue (f : Frame) (h : x.buffer ≠ []) : Moves x true true (x.enqueue f)
  | consume (h : x.buffer ≠ []) : Moves x true true x.consume
  | begin {a : Bool} {f : Frame} (h : x.queue.head? = some f) : Moves x a a { x with sending := some f }
  | hush {a : Bool} : Moves x a a x.hush
  | complete {a : Bool} {f : Frame} (h : x.sending = some f) : Moves x a a x.complete
  | restart {a b : Bool} : Moves x a b {}
  | activate : Moves x false true x.activate
  | cease {a : Bool} : Moves x a false x.cease

/-- A line counter below its maximum after an increment was below it before, and has risen by one (R18). -/
theorem bump32_lt {n : Nat} (h : bump32 n < max32) : n < max32 ∧ bump32 n = n + 1 := by
  simp only [bump32, satAdd, max32] at h ⊢
  omega

/-- A lane right after a reset. -/
theorem Lane.sound_empty (a : Bool) : ({} : Lane).Sound a := ⟨nofun, fun _ _ _ _ => rfl, fun _ => rfl⟩

/-- A lane that an event moves stays sound. -/
theorem Lane.Moves.sound {a b : Bool} {x y : Lane} (m : x.Moves a b y) (h : x.Sound a) : y.Sound b := by
  obtain ⟨hhead, hlaw, hempty⟩ := h
  cases m with
  | stay => exact ⟨hhead, hlaw, hempty⟩
  | receive f =>
    refine ⟨hhead, fun _ hg hf hc => ?_, nofun⟩
    obtain ⟨hg', hgood⟩ := bump32_lt hg
    have := hlaw rfl hg' hf hc
    simp only [Lane.receive, List.length_append, List.length_singleton] at *
    omega
  | keep b => exact ⟨hhead, nofun, hempty⟩
  | enqueue f hb =>
    refine ⟨fun g hg => ?_, fun _ hg hf hc => ?_, nofun⟩
    · simp only [Lane.enqueue, List.head?_append, hhead g hg, Option.some_or]
    · have := hlaw rfl hg hf hc
      have := List.length_pos_iff.mpr hb
      simp only [Lane.enqueue, List.length_append, List.length_tail, List.length_singleton] at *
      omega
  | consume hb =>
    refine ⟨hhead, fun _ hg hf hc => ?_, nofun⟩
    obtain ⟨hc', hcons⟩ := bump32_lt hc
    have := hlaw rfl hg hf hc'
    have := List.length_pos_iff.mpr hb
    simp only [Lane.consume, List.length_tail] at *
    omega
  | begin hq => exact ⟨fun g hg => by rw [← hg]; exact hq, hlaw, hempty⟩
  | hush => exact ⟨nofun, hlaw, hempty⟩
  | complete hs =>
    have hq : x.queue ≠ [] := fun hnil => by simpa [hnil] using hhead _ hs
    refine ⟨nofun, fun ha hg hf hc => ?_, fun ha => absurd (hempty ha) hq⟩
    obtain ⟨hf', hforw⟩ := bump32_lt hf
    have := hlaw ha hg hf' hc
    have := List.length_pos_iff.mpr hq
    simp only [Lane.complete, List.length_tail] at *
    omega
  | restart => exact Lane.sound_empty b
  | activate =>
    refine ⟨hhead, fun _ _ _ _ => ?_, nofun⟩
    simp [Lane.activate, hempty rfl]
  | cease => exact ⟨nofun, nofun, fun _ => rfl⟩

/-- An event moves both lanes. -/
def Flow.Moves (x y : Flow) : Prop := x.up.Moves x.active y.active y.up ∧ x.down.Moves x.active y.active y.down

theorem Flow.moves_refl (x : Flow) : x.Moves x := ⟨.stay, .stay⟩

theorem conserved_of_moves {s t : State} (m : s.flow.Moves t.flow) (h : s.conserved) : t.conserved := by
  obtain ⟨hup, hdown⟩ := conserved_iff.mp h
  exact conserved_iff.mpr ⟨m.1.sound hup, m.2.sound hdown⟩

/-! ### Operations that keep the flow -/

theorem flow_congr {s t : State} (role : t.mirror.role = s.mirror.role) (station : t.station = s.station)
    (centre : t.centre = s.centre) (up : t.upQueue = s.upQueue) (down : t.downQueue = s.downQueue) :
    t.flow = s.flow := by
  simp only [State.flow, State.isActive, role, station, centre, up, down]

theorem Kept.flow {s t : State} (h : Kept s t) : t.flow = s.flow :=
  flow_congr h.role h.station h.centre (congrArg Road.upQueue h.road) (congrArg Road.downQueue h.road)

theorem isActive_of_flow {s t : State} (h : t.flow = s.flow) : t.isActive = s.isActive := congrArg Flow.active h

theorem Noted.flow {e t : State} (h : Noted e t) : t.flow = e.flow := by rw [h.1]; rfl

@[simp] theorem flow_setCase (s : State) (n : Nat) (c : CaseRecord) : (s.setCase n c).flow = s.flow :=
  (noted_setCase (noted_refl s) n c).flow
@[simp] theorem flow_fillSlot (s : State) (n : Nat) (x : Slot) : (s.fillSlot n x).flow = s.flow :=
  (noted_fillSlot (noted_refl s) n x).flow
@[simp] theorem flow_setFeed (s : State) (n : Nat) (x : Feed) : (s.setFeed n x).flow = s.flow :=
  (noted_setFeed (noted_refl s) n x).flow
@[simp] theorem flow_setInjector (s : State) (x : Injector) : (s.setInjector x).flow = s.flow :=
  (noted_setInjector (noted_refl s) x).flow
@[simp] theorem flow_setHorizon (s : State) (x : Horizon) : (s.setHorizon x).flow = s.flow :=
  (noted_setHorizon (noted_refl s) x).flow
@[simp] theorem flow_setClock (s : State) (x : Clock) : (s.setClock x).flow = s.flow :=
  (noted_setClock (noted_refl s) x).flow
@[simp] theorem flow_setProduct (s : State) (n : Nat) (x : Product) : (s.setProduct n x).flow = s.flow :=
  (noted_setProduct (noted_refl s) n x).flow
@[simp] theorem flow_setPolicy (s : State) (x : Policy) : (s.setPolicy x).flow = s.flow :=
  (noted_setPolicy (noted_refl s) x).flow
@[simp] theorem flow_setNotice (s : State) (c : NoticeClass) (x : NoticeEntry) : (s.setNotice c x).flow = s.flow :=
  (noted_setNotice (noted_refl s) c x).flow
@[simp] theorem flow_doListOp (s : State) (op : ListOp) : (s.doListOp op).flow = s.flow :=
  (noted_doListOp (noted_refl s) op).flow
@[simp] theorem flow_doEmitOp (s : State) (op : EmitOp) : (s.doEmitOp op).flow = s.flow :=
  (noted_doEmitOp (noted_refl s) op).flow
@[simp] theorem flow_countNotice (c : NoticeClass) (sub : Subject) (s : State) :
    (countNotice c sub s).flow = s.flow := (kept_countNotice c sub s).flow
@[simp] theorem flow_countIf (b : Bool) (c : NoticeClass) (sub : Subject) (s : State) :
    (countIf b c sub s).flow = s.flow := (kept_countIf b c sub s).flow
@[simp] theorem flow_formCompletion (ok : Bool) (n : Nat) (d : Option Detail) (s : State) :
    (formCompletion ok n d s).flow = s.flow := (kept_formCompletion ok n d s).flow
@[simp] theorem flow_failTakeover (why : Detail) (s : State) : (failTakeover why s).flow = s.flow :=
  flow_formCompletion _ _ _ s
@[simp] theorem flow_placeAnswer (s : State) : (placeAnswer s).flow = s.flow := (kept_placeAnswer s).flow
@[simp] theorem flow_flushAnswers (s : State) : (flushAnswers s).flow = s.flow := (kept_flushAnswers s).flow
@[simp] theorem flow_stopMirroring (why : Detail) (report : Bool) (s : State) :
    (stopMirroring why report s).flow = s.flow := (kept_stopMirroring why report s).flow

@[simp] theorem flow_trigger (s : State) : (trigger s).flow = s.flow := flow_congr rfl rfl rfl rfl rfl
@[simp] theorem flow_triggerIf (b : Bool) (s : State) : (triggerIf b s).flow = s.flow :=
  flow_congr rfl rfl rfl rfl rfl
@[simp] theorem flow_recompute (s : State) : (recompute s).flow = s.flow := (noted_recompute (noted_refl s)).flow

theorem Tx.record_detach (h : Handle) (k : EmitKind) (t : Tx) : (t.detach h k).record = t.record := by
  cases t <;> rfl

/-- A state whose Centre transmission lost its Emission List entry. -/
theorem flow_detach (s : State) (h : Handle) (k : EmitKind) :
    { s with centre := { s.centre with tx := s.centre.tx.detach h k } }.flow = s.flow := by
  simp only [State.flow, State.isActive, Lane.between, Tx.record_detach]

@[simp] theorem flow_removeEmission (h : Handle) (k : EmitKind) (s : State) :
    (removeEmission h k s).flow = s.flow := by
  unfold removeEmission
  split
  · exact (flow_detach (s.doEmitOp _) h k).trans (flow_doEmitOp _ _)
  · rfl

@[simp] theorem flow_placeOffer (h : Handle) (s : State) : (placeOffer h s).flow = s.flow :=
  (noted_placeOffer (noted_refl s) h).flow

@[simp] theorem flow_freeSlot (n : Nat) (s : State) : (freeSlot n s).flow = s.flow := by simp [freeSlot]

/-! ### The end of an event -/

theorem startCredit_rx (a : Bool) (p : Port) : (p.startCredit a).rx = p.rx := by
  unfold Port.startCredit; split <;> rfl

theorem startCredit_counters (a : Bool) (p : Port) : (p.startCredit a).counters = p.counters := by
  unfold Port.startCredit; split <;> rfl

theorem startCredit_record (a : Bool) (p : Port) : (p.startCredit a).tx.record = p.tx.record := by
  unfold Port.startCredit
  split
  · rename_i h
    simp only [Bool.and_eq_true, beq_iff_eq] at h
    rw [h.1.2]
    rfl
  · rfl

@[simp] theorem flow_finish (s : State) : (finish s).flow = s.flow := by
  have hup : (finish s).upQueue = s.upQueue := congrArg Road.upQueue (finish_road s)
  have hdown : (finish s).downQueue = s.downQueue := congrArg Road.downQueue (finish_road s)
  simp only [State.flow, State.isActive, Lane.between, finish_role, finish_station, finish_centre, hup, hdown,
    startCredit_rx, startCredit_counters, startCredit_record]

/-- Every next state that a meaning can answer has its lanes moved. -/
def Moved (s : State) (r : Result) : Prop := ∀ t, r = .next t → s.flow.Moves t.flow

theorem moved_next (s : State) : Moved s (.next s) := by
  rintro _ ⟨⟩
  exact s.flow.moves_refl

theorem moved_event {ready : Bool} {effect : State → State} {s : State}
    (h : ready = true → s.flow.Moves (effect s).flow) : Moved s (event ready effect s) := by
  cases ready with
  | false => rw [event_idle rfl]; exact moved_next s
  | true =>
    rw [event_next rfl]
    rintro _ ⟨⟩
    rw [flow_finish]
    exact h rfl

theorem moved_of_flow {ready : Bool} {effect : State → State} {s : State} (h : (effect s).flow = s.flow) :
    Moved s (event ready effect s) :=
  moved_event fun _ => by rw [h]; exact s.flow.moves_refl

/-! ### Cases, feeds and the clock keep the flow -/

@[simp] theorem flow_anchorCase (n : Nat) (c : CaseRecord) (s : State) : (anchorCase n c s).flow = s.flow := by
  unfold anchorCase
  dsimp only
  split <;> simp

@[simp] theorem flow_keepCase (n : Nat) (b a : CaseRecord) (s : State) : (keepCase n b a s).flow = s.flow := by
  unfold keepCase
  split <;> simp

@[simp] theorem flow_settleCase (n : Nat) (c : CaseRecord) (s : State) : (settleCase n c s).flow = s.flow := by
  simp [settleCase]

@[simp] theorem flow_stallCase (source : StalledFrom) (n : Nat) (c : CaseRecord) (s : State) :
    (stallCase source n c s).flow = s.flow := by simp [stallCase]

@[simp] theorem flow_visitCase (n : Nat) (c : CaseRecord) (s : State) : (visitCase n c s).flow = s.flow := by
  unfold visitCase
  dsimp only
  repeat' split
  all_goals simp

@[simp] theorem flow_visitSlot (n : Nat) (s : State) : (visitSlot n s).flow = s.flow := by
  unfold visitSlot
  split <;> simp

@[simp] theorem flow_adoptTime (t : Nat) (s : State) : (adoptTime t s).flow = s.flow := by
  unfold adoptTime
  split <;> simp

@[simp] theorem flow_countUnadmitted (n : Nat) (s : State) : (countUnadmitted n s).flow = s.flow := by
  simp [countUnadmitted]

@[simp] theorem flow_ignoreAck (n : Nat) (s : State) : (ignoreAck n s).flow = s.flow := by simp [ignoreAck]

@[simp] theorem flow_sweepEffect (n t : Nat) (s : State) : (sweepEffect n t s).flow = s.flow := by
  unfold sweepEffect
  repeat' split
  all_goals simp

@[simp] theorem flow_listackEffect (a : Listack) (s : State) : (listackEffect a s).flow = s.flow := by
  unfold listackEffect
  dsimp only
  repeat' split
  all_goals simp

@[simp] theorem flow_feedCheck (r : CardRecord) (s : State) : (feedCheck r s).flow = s.flow := by
  unfold feedCheck
  repeat' split
  all_goals simp

@[simp] theorem flow_applyAttributed (n : Nat) (b : CaseRecord) (a : Attributed) (s : State) :
    (applyAttributed n b a s).flow = s.flow := by
  unfold applyAttributed
  dsimp only
  split <;> simp

@[simp] theorem flow_attributeFrame (f : Frame) (s : State) : (attributeFrame f s).1.flow = s.flow := by
  unfold attributeFrame
  dsimp only
  repeat' split
  all_goals simp

@[simp] theorem flow_bypassFrame (f : Frame) (s : State) : (bypassFrame f s).flow = s.flow := by
  unfold bypassFrame
  repeat' split
  all_goals simp

/-! ### The List Injector keeps the flow but for the end of its delta -/

@[simp] theorem flow_setRemoval (h : Handle) (v : Option Nat) (s : State) : (setRemoval h v s).flow = s.flow := by
  unfold setRemoval
  split <;> simp

@[simp] theorem flow_beginDelta (d : Delta) (s : State) : (beginDelta d s).flow = s.flow := by
  unfold beginDelta
  split <;> simp

@[simp] theorem flow_cutDelta (d : Delta) (s : State) : (cutDelta d s).flow = s.flow := by
  unfold cutDelta
  repeat' split
  all_goals simp

@[simp] theorem flow_cutStationDelta (s : State) : (cutStationDelta s).flow = s.flow := by
  unfold cutStationDelta
  split <;> simp

@[simp] theorem flow_injectVersion (d : Delta) (s : State) : (injectVersion d s).flow = s.flow := by
  simp [injectVersion]

@[simp] theorem flow_listCase (n v : Nat) (c : CaseRecord) (s : State) : (listCase n v c s).flow = s.flow := by
  unfold listCase
  dsimp only
  split <;> simp

@[simp] theorem flow_addToCase (d : Delta) (b : Bool) (s : State) : (addToCase d b s).flow = s.flow := by
  unfold addToCase
  repeat' split
  all_goals simp

/-- The Station transmitter has ended an inserted record. -/
theorem flow_stationDone (s : State) :
    { s with station := s.station.insertedDone }.flow = { s.flow with down := s.flow.down.hush } := rfl

/-- The Centre transmitter has ended an inserted record. -/
theorem flow_centreDone (s : State) :
    { s with centre := s.centre.insertedDone }.flow = { s.flow with up := s.flow.up.hush } := rfl

theorem flow_injectAdd (d : Delta) (s : State) : (injectAdd d s).flow = { s.flow with down := s.flow.down.hush } := by
  unfold injectAdd
  dsimp only
  split <;> simp [flow_stationDone]

theorem flow_injectRemove (d : Delta) (s : State) :
    (injectRemove d s).flow = { s.flow with down := s.flow.down.hush } := by
  unfold injectRemove
  dsimp only
  split <;> simp [flow_stationDone]

/-! ### The commands' own effects -/

@[simp] theorem refuse_state (why : Reason) (s : State) : (refuse why s).state = s := rfl
@[simp] theorem accept_state (s : State) (r : Reply) : (accept s r).state = s := rfl

theorem flow_withHandle {h : Handle} {act : CaseRecord → Executed} {s : State}
    (hact : ∀ x, (act x).state.flow = s.flow) : (withHandle h act s).state.flow = s.flow := by
  unfold withHandle
  repeat' split
  · rfl
  · exact hact _
  · rfl

theorem flow_openCase (c : Control) (s : State) : (openCase c s).state.flow = s.flow := by
  unfold openCase openAt
  repeat' split
  all_goals simp

theorem flow_cancelOpening (h : Handle) (x : CaseRecord) (s : State) :
    (cancelOpening h x s).state.flow = s.flow := by
  unfold cancelOpening
  split <;> simp

theorem flow_cancelCase (c : Control) (s : State) : (cancelCase c s).state.flow = s.flow := by
  unfold cancelCase
  split
  · rfl
  · refine flow_withHandle fun x => ?_
    split
    · exact flow_cancelOpening _ x s
    all_goals simp [voidListed]

theorem flow_acceptCase (c : Control) (s : State) : (acceptCase c s).state.flow = s.flow := by
  unfold acceptCase
  split
  · rfl
  · refine flow_withHandle fun x => ?_
    repeat' split
    all_goals simp

theorem flow_bindCase (c : Control) (s : State) : (bindCase c s).state.flow = s.flow := by
  unfold bindCase
  split
  · rfl
  · refine flow_withHandle fun x => ?_
    repeat' split
    all_goals simp

theorem flow_forceProgress (c : Control) (s : State) : (forceProgress c s).state.flow = s.flow := by
  unfold forceProgress
  split
  · rfl
  · refine flow_withHandle fun x => ?_
    split <;> simp

theorem flow_closeCase (c : Control) (s : State) : (closeCase c s).state.flow = s.flow := by
  unfold closeCase
  split
  · rfl
  · refine flow_withHandle fun x => ?_
    repeat' split
    all_goals simp

theorem flow_readCase (c : Control) (s : State) : (readCase c s).state.flow = s.flow := by
  unfold readCase
  split
  · rfl
  · exact flow_withHandle fun x => rfl
  · repeat' split
    all_goals rfl

theorem flow_admitFeed (c : Control) (s : State) : (admitFeed c s).state.flow = s.flow := by
  unfold admitFeed
  dsimp only
  repeat' split
  all_goals simp

theorem flow_retireFeed (c : Control) (s : State) : (retireFeed c s).state.flow = s.flow := by
  unfold retireFeed
  dsimp only
  repeat' split
  all_goals simp

theorem flow_readFeed (c : Control) (s : State) : (readFeed c s).state.flow = s.flow := by
  unfold readFeed
  repeat' split
  all_goals rfl

theorem flow_setPolicyCommand (c : Control) (s : State) : (setPolicyCommand c s).state.flow = s.flow := by
  unfold setPolicyCommand
  split <;> simp

theorem flow_readPolicyCommand (c : Control) (s : State) : (readPolicyCommand c s).state.flow = s.flow := by
  unfold readPolicyCommand
  split <;> rfl

theorem flow_beginLoad (c : Control) (s : State) : (beginLoad c s).state.flow = s.flow := by
  unfold beginLoad
  dsimp only
  repeat' split
  all_goals rfl

theorem flow_writeEntries (rs : List RawProduct) (x : Session) (s : State) :
    (writeEntries rs x s).2.flow = s.flow := by
  induction rs generalizing x s with
  | nil => rfl
  | cons r rest ih => exact (ih _ _).trans (flow_setProduct _ _ _)

theorem flow_productData (c : Control) (s : State) : (productData c s).state.flow = s.flow := by
  unfold productData
  split
  · rfl
  · split
    · rfl
    · exact flow_writeEntries _ _ s

theorem flow_readProduct (c : Control) (s : State) : (readProduct c s).state.flow = s.flow := by
  unfold readProduct
  repeat' split
  all_goals rfl

theorem flow_writeMasks (ms : List (NoticeClass × Bool)) (s : State) : (writeMasks ms s).flow = s.flow := by
  induction ms generalizing s with
  | nil => rfl
  | cons m rest ih => exact (ih _).trans (flow_setNotice _ _ _)

theorem flow_setMask (c : Control) (s : State) : (setMask c s).state.flow = s.flow := by
  unfold setMask
  split
  · rfl
  · exact flow_writeMasks _ s

@[simp] theorem flow_clearNotice (c : NoticeClass) (s : State) : (clearNotice c s).flow = s.flow :=
  flow_setNotice _ _ _

@[simp] theorem flow_clearAll (cs : List NoticeClass) (s : State) : (clearAll cs s).flow = s.flow := by
  induction cs generalizing s with
  | nil => rfl
  | cons c rest ih => exact (ih _).trans (flow_clearNotice _ _)

theorem flow_clearNotices (c : Control) (s : State) : (clearNotices c s).state.flow = s.flow := by
  unfold clearNotices
  split <;> simp

theorem flow_setModeCommand (c : Control) (s : State) : (setModeCommand c s).state.flow = s.flow := by
  unfold setModeCommand
  split <;> rfl

theorem flow_readStatus (x : Option Session) (c : Control) (s : State) :
    (readStatus x c s).state.flow = s.flow := by
  unfold readStatus
  split <;> rfl

theorem flow_exportCases (c : Control) (s : State) : (exportCases c s).state.flow = s.flow := by
  unfold exportCases
  dsimp only
  repeat' split
  all_goals rfl

theorem flow_resyncPartner (c : Control) (s : State) : (resyncPartner c s).state.flow = s.flow := by
  unfold resyncPartner
  repeat' split
  all_goals rfl

theorem flow_takeover (c : Control) (s : State) : (takeover c s).state.flow = s.flow := by
  unfold takeover
  repeat' split
  all_goals rfl

theorem flow_forcedTakeover (c : Control) (s : State) : (forcedTakeover c s).state.flow = s.flow := by
  unfold forcedTakeover
  split <;> rfl

/-! ### Resets -/

/-- Both lanes empty, their counters at 0, the role as it is (R6, R11, R18). -/
def Flow.restarted (x : Flow) : Flow := { active := x.active }

theorem moves_restarted (x : Flow) (b : Bool) : x.Moves { active := b } := ⟨.restart, .restart⟩

theorem flow_withNotices (s : State) (n : Notices) : { s with notices := n }.flow = s.flow := rfl

theorem flow_resetNotices (s : State) : (resetNotices s).flow = s.flow :=
  (flow_withNotices (clearAll noticeClasses s) _).trans (flow_clearAll noticeClasses s)

/-- Empty ports and empty forward queues make an empty flow. -/
theorem flow_of_empty {s : State} (station : s.station = .afterReset) (centre : s.centre = .afterReset)
    (up : s.upQueue = []) (down : s.downQueue = []) : s.flow = { active := s.isActive } := by
  rw [State.flow, station, centre, up, down]
  rfl

theorem flow_keepTables (cause : ResetCause) (s : State) : (keepTables cause s).flow = s.flow.restarted := by
  have hrole : (cutStationDelta s).isActive = s.isActive := isActive_of_flow (flow_cutStationDelta s)
  unfold keepTables
  extract_lets t
  refine (flow_resetNotices _).trans ?_
  refine (flow_of_empty rfl rfl rfl rfl).trans ?_
  exact congrArg (fun a => ({ active := a } : Flow)) hrole

theorem flow_commandReset (s : State) : (commandReset s).flow = s.flow.restarted := by
  rw [commandReset, flow_countIf, flow_trigger, flow_keepTables]
  rfl

theorem flow_forcedReset (s : State) : (forcedReset s).flow = { active := false } := by
  rw [forcedReset, flow_countIf, flow_keepTables]
  rfl

theorem flow_startUp (cause : ResetCause) (straps : Straps) (s : State) :
    (startUp cause straps s).flow = { active := !straps.pair } := by
  unfold startUp
  cases straps.pair with
  | true => rfl
  | false => exact flow_countNotice _ _ _

theorem engineReset_flow (c : Control) (s : State) :
    (engineReset c s).state.flow = s.flow ∨ (engineReset c s).state.flow = s.flow.restarted := by
  unfold engineReset
  split
  · exact .inl rfl
  · exact .inr (flow_commandReset s)

/-! ### Changes of role -/

theorem flow_dropRemovals (xs : List (Nat × CaseRecord)) (s : State) : (dropRemovals xs s).flow = s.flow := by
  induction xs generalizing s with
  | nil => rfl
  | cons x rest ih => exact (ih _).trans (flow_setCase _ _ _)

theorem flow_dropCancelled (s : State) : (dropCancelled s).flow = s.flow := by
  unfold dropCancelled
  repeat' split
  all_goals simp

theorem flow_completeTakeover (s : State) : (completeTakeover s).flow = s.flow := by
  unfold completeTakeover
  repeat' split
  all_goals simp

theorem flow_becomeActive (cause : ClaimCause) (s : State) :
    (becomeActive cause s).flow = ⟨true, s.flow.up.activate, s.flow.down.activate⟩ := by
  rw [becomeActive, flow_flushAnswers, flow_completeTakeover, flow_trigger, countRoleChange, flow_countNotice,
    flow_dropRemovals, flow_dropCancelled]
  rfl

theorem flow_handOver (s : State) : (handOver s).flow = ⟨false, s.flow.up.cease, s.flow.down.cease⟩ :=
  flow_countNotice _ _ _

theorem moves_becomeActive {s : State} (h : s.isActive = false) (cause : ClaimCause) :
    s.flow.Moves (becomeActive cause s).flow := by
  have ha : s.flow.active = false := h
  rw [flow_becomeActive, Flow.Moves, ha]
  exact ⟨.activate, .activate⟩

theorem moves_handOver (s : State) : s.flow.Moves (handOver s).flow := by
  rw [flow_handOver]
  exact ⟨.cease, .cease⟩

/-! ### The Mirror Unit keeps the flow -/

theorem flow_withMirror {s : State} {m : MirrorUnit} (h : m.role = s.mirror.role) :
    { s with mirror := m }.flow = s.flow := flow_congr h rfl rfl rfl rfl

@[simp] theorem flow_hearPair (s : State) : (hearPair s).flow = s.flow := flow_withMirror rfl
@[simp] theorem flow_beginClaim (cause : ClaimCause) (s : State) : (beginClaim cause s).flow = s.flow :=
  flow_withMirror rfl
@[simp] theorem flow_sendStop (s : State) : (sendStop s).flow = s.flow := flow_withMirror rfl
@[simp] theorem flow_becomeStale (s : State) : (becomeStale s).flow = s.flow := flow_countNotice _ _ _
@[simp] theorem flow_takeRelay (a : Answer) (s : State) : (takeRelay a s).flow = s.flow := flow_withMirror rfl

theorem flow_failClaim (cause : ClaimCause) (why : Detail) (s : State) : (failClaim cause why s).flow = s.flow := by
  unfold failClaim
  split <;> simp

theorem flow_withdraw (cause : ClaimCause) (s : State) : (withdraw cause s).flow = s.flow := by
  unfold withdraw
  cases cause with
  | startup => rfl
  | handover held => exact (flow_failClaim _ _ _).trans (flow_withMirror rfl)
  | forced =>
    dsimp only
    split
    · exact (flow_failClaim _ _ _).trans ((flow_withMirror rfl).trans (flow_becomeStale _))
    · exact (flow_failClaim _ _ _).trans (flow_withMirror rfl)

@[simp] theorem flow_endDrain (s : State) : (endDrain s).flow = s.flow := by
  unfold endDrain
  split <;> rfl

theorem flow_pairDownActive (s : State) : (pairDownActive s).flow = s.flow := by
  unfold pairDownActive
  split <;> simp

theorem flow_pairDownStandby (s : State) : (pairDownStandby s).flow = s.flow := by
  have h := (flow_withMirror (s := becomeStale s)
    (m := { (becomeStale s).mirror with relayList := [], tx := s.mirror.tx.map PairTx.detach }) rfl).trans
    (flow_becomeStale s)
  unfold pairDownStandby
  rw [flow_flushAnswers]
  split
  · exact (flow_failTakeover _ _).trans h
  · exact h

theorem flow_applyWrite (w : TableWrite) (s : State) : (applyWrite w s).flow = s.flow := by
  cases w <;> simp [applyWrite]

theorem flow_applyPayload (p : Payload) (s : State) : (applyPayload p s).flow = s.flow := by
  cases p with
  | write w part parts =>
    rw [applyPayload]
    split
    · exact flow_applyWrite w s
    · rfl
  | copyBegin | copyEnd | listRun | emitRun => rfl

theorem flow_applyGroup (ms : List MirrorWrite) (s : State) : (applyGroup ms s).flow = s.flow := by
  induction ms generalizing s with
  | nil => rfl
  | cons m rest ih => exact (ih _).trans (flow_applyPayload _ s)

theorem flow_joinGroup (m : MirrorWrite) (s : State) : (joinGroup m s).flow = s.flow := by
  unfold joinGroup
  dsimp only
  split
  · exact (flow_applyGroup _ _).trans (flow_withMirror rfl)
  · exact flow_withMirror rfl

theorem flow_takeCopyEnd (p : Payload) (s : State) : (takeCopyEnd p s).flow = s.flow := by
  unfold takeCopyEnd
  split <;> rfl

theorem flow_gapFound (w : MirrorWrite) (s : State) : (gapFound w s).flow = s.flow := by
  unfold gapFound
  dsimp only
  rw [flow_sendStop]
  split
  · exact (flow_becomeStale _).trans (flow_withMirror rfl)
  · exact flow_withMirror rfl

theorem flow_takeMirrorWrite (w : MirrorWrite) (s : State) : (takeMirrorWrite w s).flow = s.flow := by
  unfold takeMirrorWrite
  split
  · exact flow_withMirror rfl
  · split
    · split
      · exact (flow_takeCopyEnd _ _).trans ((flow_joinGroup _ _).trans (flow_withMirror rfl))
      · exact flow_gapFound w s
    · rfl

theorem flow_messageSent (t : PairTx) (s : State) : (messageSent t s).flow = s.flow := by
  unfold messageSent
  dsimp only
  split
  · exact flow_withMirror rfl
  · split
    · exact (flow_flushAnswers _).trans (flow_withMirror rfl)
    · exact flow_withMirror rfl
  · exact flow_withMirror rfl

theorem flow_copyDone (s : State) : (copyDone s).flow = s.flow := by
  unfold copyDone
  split
  · split
    · exact (flow_flushAnswers _).trans ((flow_formCompletion _ _ _ _).trans (flow_withMirror rfl))
    · rfl
  · rfl

theorem placeSteps_role (ps : List Payload) (m : MirrorUnit) : (placeSteps ps m).role = m.role := by
  induction ps generalizing m with
  | nil => rfl
  | cons p rest ih => exact (ih _).trans rfl

theorem flow_placeStep (k : Copy) (s : State) : (placeStep k s).flow = s.flow :=
  flow_withMirror (placeSteps_role _ _)

theorem flow_endExport (s : State) : (endExport s).flow = s.flow := by
  unfold endExport
  repeat' split
  all_goals simp

theorem flow_beginDrain (s : State) : (beginDrain s).flow = s.flow := (flow_endExport _).trans rfl

theorem flow_awaitHold (s : State) : (awaitHold s).flow = s.flow := rfl

theorem flow_compareHandover (next : Count16) (s : State) : (compareHandover next s).flow = s.flow := by
  unfold compareHandover
  split
  · rfl
  · exact (flow_countNotice _ _ _).trans (flow_withMirror rfl)

/-! ### The line ports -/

/-- A change of one port moves its own line's lane and the lane that it sends for. -/
theorem moves_onPort {l : Line} {g : Port → Port} {s : State}
    (own : ∀ p q, (Lane.between (s.port l) p q).Moves s.isActive s.isActive (.between (g (s.port l)) p q))
    (other : ∀ p q, (Lane.between p (s.port l) q).Moves s.isActive s.isActive (.between p (g (s.port l)) q)) :
    s.flow.Moves (s.onPort l g).flow := by
  cases l with
  | station => exact ⟨own _ _, other _ _⟩
  | centre => exact ⟨other _ _, own _ _⟩

theorem moves_receive (f : Frame) (p o : Port) (q : List Frame) :
    (Lane.between p o q).Moves true true (.between (p.hear.receive f) o q) := by
  unfold Port.receive
  split
  · exact .receive f
  · exact .stay

theorem between_receive (f : Frame) (p o : Port) (q : List Frame) :
    Lane.between o (p.hear.receive f) q = .between o p q := by
  unfold Port.receive
  split <;> rfl

theorem moves_recordArrives (l : Line) (f : Frame) (s : State) : s.flow.Moves (recordArrives l f s).flow := by
  unfold recordArrives
  split
  next ha =>
    rw [flow_countIf]
    refine moves_onPort (fun p q => ?_) (fun p q => ?_) <;> rw [ha]
    · exact moves_receive f _ p q
    · rw [between_receive]
      exact .stay
  next ha =>
    refine moves_onPort (fun p q => ?_) (fun p q => .stay)
    rw [eq_false_of_ne_true ha]
    exact .keep _

theorem moves_creditArrives (l : Line) (body : List Byte) (s : State) :
    s.flow.Moves (creditArrives l body s).flow := by
  unfold creditArrives
  split
  · split
    · rw [flow_countIf]
      exact moves_onPort (fun _ _ => .stay) (fun _ _ => .stay)
    · exact moves_onPort (fun _ _ => .stay) (fun _ _ => .stay)
  · exact moves_onPort (fun _ _ => .stay) (fun _ _ => .stay)

theorem Tx.record_cut (t : Tx) : t.cut.record = none := by cases t <;> rfl

/-- A record in transmission is cut off, and stays in its queue (R5). -/
theorem moves_linkDown (l : Line) (s : State) : s.flow.Moves (linkDown l s).flow := by
  have hcut : (if l = .station then cutStationDelta s else s).flow = s.flow := by split <;> simp
  unfold linkDown
  rw [← hcut]
  refine moves_onPort (fun p q => .stay) (fun p q => ?_)
  simp only [Lane.between, Tx.record_cut]
  exact .hush

/-- The silence timer is no part of the flow. -/
theorem flow_silence (l : Line) (s : State) (n : Nat) :
    (s.onPort l (fun p => { p with silence := n })).flow = s.flow := by cases l <;> rfl

/-- A forwarded record that completes leaves the queue that its port sends for (R4, R18). -/
theorem moves_forwardedCompletes {l : Line} {s : State} (h : (s.port l).tx.isForwarded = true) :
    s.flow.Moves (forwardedCompletes l s).flow := by
  obtain ⟨f, hf⟩ : ∃ f, (s.port l).tx.record = some f := by
    cases ht : (s.port l).tx with
    | forwarded f => exact ⟨f, rfl⟩
    | idle | credit | inserted | emission | delta => rw [ht] at h; cases h
  cases l with
  | station => exact ⟨.stay, .complete (x := s.flow.down) hf⟩
  | centre => exact ⟨.complete (x := s.flow.up) hf, .stay⟩

/-! ### The Record Classifier -/

theorem head_eq_some {s : State} {l : Line} {f : Frame} (h : s.head l = some f) :
    s.isActive = true ∧ (s.port l).rx ≠ [] := by
  unfold State.head at h
  split at h
  next ha => exact ⟨ha, fun hnil => by simp [hnil] at h⟩
  next => cases h

theorem flow_takeUp (f : Frame) (s : State) :
    (takeUp f s).flow = { s.flow with up := s.flow.up.enqueue f } := rfl

/-- A frame taken from the Station buffer goes on in the Upward Forward Queue (R8, R11). -/
theorem moves_takeUp {s : State} {f : Frame} (h : s.head .station = some f) (g : Frame) :
    s.flow.Moves { s.flow with up := s.flow.up.enqueue g } := by
  obtain ⟨ha, hrx⟩ := head_eq_some h
  have hf : s.flow.active = true := ha
  rw [Flow.Moves, hf]
  exact ⟨.enqueue g hrx, .stay⟩

/-- A frame taken from the Centre buffer goes on in the Downward Forward Queue (R8, R11). -/
theorem moves_takeDown {s : State} {f : Frame} (h : s.head .centre = some f) (g : Frame) :
    s.flow.Moves { s.flow with down := s.flow.down.enqueue g } := by
  obtain ⟨ha, hrx⟩ := head_eq_some h
  have hf : s.flow.active = true := ha
  rw [Flow.Moves, hf]
  exact ⟨.stay, .enqueue g hrx⟩

/-- A CONTROL record is consumed, which an ACTIVE engine counts (R10, R18). -/
theorem moves_takeControl {s : State} (h : s.centre.rx ≠ []) : s.flow.Moves (takeControl s).flow := by
  cases ha : s.isActive with
  | true =>
    have hflow : (takeControl s).flow = { s.flow with down := s.flow.down.consume } := by
      simp only [takeControl, ha, if_true]
      rfl
    have hf : s.flow.active = true := ha
    rw [hflow, Flow.Moves, hf]
    exact ⟨.stay, .consume h⟩
  | false =>
    have hflow : (takeControl s).flow = { s.flow with down := { s.flow.down with buffer := s.centre.rx.tail } } := by
      simp only [takeControl, ha, Bool.false_eq_true, if_false]
      rfl
    have hf : s.flow.active = false := ha
    rw [hflow, Flow.Moves, hf]
    exact ⟨.stay, .keep _⟩

theorem control_rx {s : State} {c : Control} (h : s.control = some c) : s.centre.rx ≠ [] := by
  intro hnil
  simp [State.control, hnil] at h

theorem moved_recordFrameArrival (l : Line) (bytes : List Byte) (s : State) :
    Moved s (execRecordFrameArrival l bytes s) := by
  unfold execRecordFrameArrival
  split
  · exact moved_event fun _ => moves_recordArrives l _ s
  · exact moved_next s

theorem moved_creditFrameArrival (l : Line) (bytes : List Byte) (s : State) :
    Moved s (execCreditFrameArrival l bytes s) := by
  unfold execCreditFrameArrival
  split
  · exact moved_event fun _ => moves_creditArrives l _ s
  · exact moved_next s

theorem moved_creditFrameDue (l : Line) (s : State) : Moved s (execCreditFrameDue l s) :=
  moved_event fun _ => moves_onPort (fun _ _ => .stay) (fun _ _ => .stay)

theorem moved_silenceTimeout (l : Line) (s : State) : Moved s (execSilenceTimeout l s) :=
  moved_event fun _ => by
    rw [flow_silence]
    exact moves_linkDown l s

theorem moved_lossOfSignal (l : Line) (s : State) : Moved s (execLossOfSignal l s) :=
  moved_event fun _ => moves_linkDown l s

theorem moved_attributeRecord (s : State) : Moved s (execAttributeRecord s) := by
  unfold execAttributeRecord
  split
  next f hf =>
    refine moved_event fun _ => ?_
    split
    · rw [flow_takeUp, flow_attributeFrame]
      exact moves_takeUp hf _
    · rw [flow_takeUp, flow_bypassFrame]
      exact moves_takeUp hf _
  next => exact moved_next s

theorem moved_sweep (s : State) : Moved s (execSweep s) := by
  unfold execSweep
  split
  next f hf =>
    refine moved_event fun _ => ?_
    split
    · rw [flow_sweepEffect]
      exact moves_takeUp hf f
    · exact moves_takeUp hf f
  next => exact moved_next s

theorem moved_listack (s : State) : Moved s (execListack s) := by
  unfold execListack
  split
  next f hf =>
    refine moved_event fun _ => ?_
    split
    · rw [flow_listackEffect]
      exact moves_takeUp hf f
    · exact moves_takeUp hf f
  next => exact moved_next s

theorem moved_time (s : State) : Moved s (execTime s) := by
  unfold execTime
  split
  next f hf =>
    refine moved_event fun _ => ?_
    split
    · rw [flow_adoptTime]
      exact moves_takeDown hf f
    · exact moves_takeDown hf f
  next => exact moved_next s

theorem moved_forwardUnchanged (l : Line) (s : State) : Moved s (execForwardUnchanged l s) := by
  unfold execForwardUnchanged
  split
  next f hf =>
    cases l with
    | station => exact moved_event fun _ => moves_takeUp hf f
    | centre => exact moved_event fun _ => moves_takeDown hf f
  next => exact moved_next s

theorem moved_controlForPartner (s : State) : Moved s (execControlForPartner s) := by
  unfold execControlForPartner
  split
  next f hf => exact moved_event fun _ => moves_takeControl (head_eq_some hf).2
  next => exact moved_next s

/-! ### The Command Unit -/

theorem flow_respond (c : Control) (x : Executed) : (respond c x).flow = x.state.flow := flow_flushAnswers _

theorem flow_endSession (b : Bool) (s : State) : (endSession b s).flow = s.flow := rfl

theorem moved_controlCodeReject (s : State) : Moved s (execControlCodeReject s) := by
  unfold execControlCodeReject
  split
  next c hc =>
    split
    · refine moved_event fun _ => ?_
      rw [flow_respond, refuse_state, flow_endSession]
      exact moves_takeControl (control_rx hc)
    · exact moved_next s
  next => exact moved_next s

/-- A command's own effect keeps the flow, or is a reset. -/
def KeepsFlow (own : Control → State → Executed) : Prop :=
  ∀ c s, (own c s).state.flow = s.flow ∨ (own c s).state.flow = s.flow.restarted

theorem keepsFlow_of_flow {own : Control → State → Executed} (h : ∀ c s, (own c s).state.flow = s.flow) :
    KeepsFlow own := fun c s => .inl (h c s)

theorem KeepsFlow.executed {own : Control → State → Executed} (h : KeepsFlow own) (adm : Admission) (busy : Bool) :
    KeepsFlow (executed adm busy own) := by
  intro c s
  unfold Machine.executed
  split
  · exact .inl rfl
  · exact h c s

theorem moved_runCommand {own : Control → State → Executed} (h : KeepsFlow own) (code : Byte) (adm : Admission)
    (busy : Bool) (s : State) : Moved s (runCommand code adm busy own s) := by
  unfold runCommand
  split
  next c hc =>
    refine moved_event fun _ => ?_
    rw [flow_respond]
    rcases h.executed adm busy c (endSession (code != codeProductData) (takeControl s)) with hx | hx
    · rw [hx, flow_endSession]
      exact moves_takeControl (control_rx hc)
    · rw [hx]
      exact moves_restarted _ _
  next => exact moved_next s

/-! ### The transmitters -/

theorem offered_record {s : State} {src : UpSource} {t : Tx} (h : s.offered src = some t) :
    t.record = none ∨ t.record = s.upQueue.head? := by
  cases src with
  | forward =>
    simp only [State.offered, Option.map_eq_some_iff] at h
    obtain ⟨f, hf, rfl⟩ := h
    exact .inr hf.symm
  | insert =>
    simp only [State.offered, Option.map_eq_some_iff] at h
    obtain ⟨r, -, rfl⟩ := h
    exact .inl rfl
  | emission =>
    simp only [State.offered] at h
    split at h
    · cases h
    · simp only [Option.map_eq_some_iff] at h
      obtain ⟨e, -, rfl⟩ := h
      exact .inl rfl

theorem firstOffered_offered {s : State} {srcs : List UpSource} {src : UpSource} {t : Tx}
    (h : s.firstOffered srcs = some (src, t)) : s.offered src = some t := by
  induction srcs with
  | nil => cases h
  | cons x rest ih =>
    unfold State.firstOffered at h
    split at h
    next u hu =>
      obtain ⟨rfl, rfl⟩ := Prod.mk.inj (Option.some.inj h)
      exact hu
    next => exact ih h

/-- A lane whose transmitter sends nothing forwarded, or the head of its queue (R4). -/
theorem moves_sending {x : Lane} {a : Bool} {r : Option Frame} (h : r = none ∨ r = x.queue.head?) :
    x.Moves a a { x with sending := r } := by
  cases r with
  | none => exact .hush
  | some f => exact .begin (h.resolve_left nofun).symm

theorem moved_upwardArbiterChoice (s : State) : Moved s (execUpwardArbiterChoice s) := by
  unfold execUpwardArbiterChoice
  split
  next src t ht =>
    have hsend := offered_record (firstOffered_offered ht)
    exact moved_event fun _ => ⟨moves_sending hsend, .stay⟩
  next => exact moved_next s

theorem moved_downwardArbiterChoice (s : State) : Moved s (execDownwardArbiterChoice s) := by
  unfold execDownwardArbiterChoice
  split
  · split
    · refine moved_event fun _ => ?_
      rw [flow_beginDelta]
      exact ⟨.stay, .hush⟩
    · exact moved_next s
  · split
    next f rest hq =>
      have hsend : some f = s.downQueue.head? := by rw [hq]; rfl
      exact moved_event fun _ => ⟨.stay, moves_sending (x := s.flow.down) (.inr hsend)⟩
    next => exact moved_next s

theorem moved_forwardedRecordCompletes (l : Line) (s : State) : Moved s (execForwardedRecordCompletes l s) :=
  moved_event moves_forwardedCompletes

theorem moved_insertedRecordCompletes (s : State) : Moved s (execInsertedRecordCompletes s) :=
  moved_event fun _ => ⟨.hush, .stay⟩

theorem moved_creditFrameSent (l : Line) (s : State) : Moved s (execCreditFrameSent l s) :=
  moved_event fun _ => moves_onPort (fun _ _ => .stay) (fun _ _ => .hush)

theorem flow_emissionCompletes (h : Handle) (k : EmitKind) (held : Bool) (s : State) :
    (emissionCompletes h k held s).flow = { s.flow with up := s.flow.up.hush } := by
  unfold emissionCompletes
  dsimp only
  split
  · split <;> simp [flow_centreDone]
  · exact flow_centreDone s

theorem moved_emissionRecordCompletes (s : State) : Moved s (execEmissionRecordCompletes s) := by
  unfold execEmissionRecordCompletes
  split
  · refine moved_event fun _ => ?_
    rw [flow_emissionCompletes]
    exact ⟨.hush, .stay⟩
  · exact moved_next s

theorem moved_addInjected (s : State) : Moved s (execAddInjected s) := by
  unfold execAddInjected
  split
  · refine moved_event fun _ => ?_
    rw [flow_injectAdd]
    exact ⟨.stay, .hush⟩
  · exact moved_next s

theorem moved_removeInjected (s : State) : Moved s (execRemoveInjected s) := by
  unfold execRemoveInjected
  split
  · refine moved_event fun _ => ?_
    rw [flow_injectRemove]
    exact ⟨.stay, .hush⟩
  · exact moved_next s

/-! ### The Insert Queue, the clock and the walk -/

theorem moved_placeCommandRecord (s : State) : Moved s (execPlaceCommandRecord s) :=
  moved_of_flow (flow_placeAnswer s)

theorem moved_placeRelay (s : State) : Moved s (execPlaceRelay s) := by
  unfold execPlaceRelay
  split
  · exact moved_of_flow rfl
  · exact moved_next s

theorem flow_exportAdvance (phases : BitVec 16) (n r count : Nat) (b : Busy) (s : State) :
    (exportAdvance phases n r count b s).flow = s.flow := by
  unfold exportAdvance
  split
  · exact (flow_flushAnswers _).trans (flow_formCompletion _ _ _ _)
  · rfl

theorem flow_exportVisit (phases : BitVec 16) (n r count : Nat) (b : Busy) (s : State) :
    (exportVisit phases n r count b s).flow = s.flow := by
  unfold exportVisit
  split
  · exact flow_exportAdvance _ _ _ _ _ _
  · exact flow_exportAdvance _ _ _ _ _ s

theorem moved_exportVisit (s : State) : Moved s (execExportVisit s) := by
  unfold execExportVisit
  split
  · split
    · exact moved_of_flow (flow_exportVisit _ _ _ _ _ s)
    · exact moved_next s
  · exact moved_next s

theorem flow_emitNotice (c : NoticeClass) (s : State) : (emitNotice c s).flow = s.flow := flow_clearNotice c s

theorem moved_placeNotice (s : State) : Moved s (execPlaceNotice s) := by
  unfold execPlaceNotice
  split
  · exact moved_of_flow (flow_emitNotice _ s)
  · exact moved_next s

theorem moved_clockTick (s : State) : Moved s (execClockTick s) := moved_of_flow (flow_triggerIf _ _)

theorem moved_walkVisit (s : State) : Moved s (execWalkVisit s) := by
  unfold execWalkVisit
  split
  · exact moved_of_flow (flow_visitSlot _ _)
  · exact moved_next s

/-! ### Resets, the Hold and Force lines, and the Pair Link -/

theorem moved_startUp (cause : ResetCause) (straps : Straps) (s : State) :
    Moved s (event true (startUp cause straps) s) :=
  moved_event fun _ => by
    rw [flow_startUp]
    exact moves_restarted _ _

theorem moved_startupDelayEnd (b : Bool) (s : State) : Moved s (execStartupDelayEnd b s) := by
  refine moved_of_flow ?_
  split
  · rfl
  · exact flow_beginClaim _ s

theorem moved_holdAssertedDuringClaim (s : State) : Moved s (execHoldAssertedDuringClaim s) := by
  unfold execHoldAssertedDuringClaim
  split
  · exact moved_of_flow (flow_withdraw _ s)
  · exact moved_next s

/-- An engine that claims is no ACTIVE engine (R163). -/
theorem standby_of_claim {s : State} {cause : ClaimCause} (h : s.holdSound) (hs : s.mirror.stage = .claiming cause) :
    s.isActive = false := by
  by_contra ha
  have hsettled := h.2 (by simpa using ha)
  rw [hs] at hsettled
  cases hsettled

theorem moved_claimComplete {s : State} (h : s.holdSound) : Moved s (execClaimComplete s) := by
  unfold execClaimComplete
  split
  next cause hs => exact moved_event fun _ => moves_becomeActive (standby_of_claim h hs) cause
  next => exact moved_next s

theorem moved_partnerHoldReleased (s : State) : Moved s (execPartnerHoldReleased s) := by
  unfold execPartnerHoldReleased
  split
  · exact moved_of_flow (flow_beginClaim _ s)
  · exact moved_next s

theorem moved_holdStuckTimeout (s : State) : Moved s (execHoldStuckTimeout s) := by
  unfold execHoldStuckTimeout
  split
  · exact moved_of_flow (flow_failClaim _ _ _)
  · exact moved_next s

theorem moved_forcePulseEnd (s : State) : Moved s (execForcePulseEnd s) := moved_of_flow (flow_withMirror rfl)

theorem moved_forcePulseReleased (n : Nat) (b : Bool) (s : State) : Moved s (execForcePulseReleased n b s) := by
  refine moved_event fun _ => ?_
  split
  · rw [flow_forcedReset]
    exact moves_restarted _ _
  · rw [flow_countNotice]
    exact s.flow.moves_refl

theorem moved_pairLinkDown (s : State) : Moved s (execPairLinkDown s) := by
  refine moved_of_flow ?_
  dsimp only
  split
  · exact flow_pairDownActive _
  · exact flow_pairDownStandby _

theorem moved_presenceDue (s : State) : Moved s (execPresenceDue s) := moved_of_flow (flow_withMirror rfl)

theorem moved_presence (good : Bool) (s : State) : Moved s (execPresence good s) := moved_of_flow (flow_hearPair s)

theorem moved_mirrorWrite (good : Bool) (m : MirrorWrite) (s : State) : Moved s (execMirrorWrite good m s) := by
  refine moved_of_flow ?_
  split
  · exact flow_hearPair s
  · exact (flow_takeMirrorWrite m _).trans (flow_hearPair s)

theorem moved_mirrorStop (good : Bool) (s : State) : Moved s (execMirrorStop good s) := by
  refine moved_of_flow ?_
  split <;> simp

theorem moved_handover (good : Bool) (next : Count16) (s : State) : Moved s (execHandover good next s) := by
  refine moved_of_flow ?_
  split
  · exact flow_hearPair s
  · exact (flow_awaitHold _).trans ((flow_compareHandover next _).trans (flow_hearPair s))

theorem moved_responseRelay (good : Bool) (a : Answer) (s : State) : Moved s (execResponseRelay good a s) := by
  refine moved_of_flow ?_
  split <;> simp

theorem moved_yieldRequest (good : Bool) (s : State) : Moved s (execYieldRequest good s) := by
  refine moved_of_flow ?_
  dsimp only
  split
  · exact (flow_beginDrain _).trans (flow_hearPair s)
  · exact flow_hearPair s

theorem moved_pairMessageSent (s : State) : Moved s (execPairMessageSent s) := by
  unfold execPairMessageSent
  split
  · exact moved_of_flow (flow_messageSent _ s)
  · exact moved_next s

theorem moved_copyItemPlaced (s : State) : Moved s (execCopyItemPlaced s) := by
  unfold execCopyItemPlaced
  split
  · exact moved_of_flow (flow_placeStep _ s)
  · exact moved_next s

theorem moved_copyEndSent (s : State) : Moved s (execCopyEndSent s) := by
  unfold execCopyEndSent
  split
  · exact moved_of_flow ((flow_copyDone _).trans (flow_messageSent _ s))
  · exact moved_next s

theorem moved_drainComplete (s : State) : Moved s (execDrainComplete s) := by
  unfold execDrainComplete
  split
  · exact moved_event fun _ => moves_handOver s
  · exact moved_next s

theorem moved_drainTimeout (s : State) : Moved s (execDrainTimeout s) := by
  refine moved_event fun _ => ?_
  split
  · exact moves_handOver s
  · exact s.flow.moves_refl

theorem moved_takeoverTimeout (s : State) : Moved s (execTakeoverTimeout s) :=
  moved_of_flow ((flow_flushAnswers _).trans (flow_failTakeover _ s))

theorem moved_holdFallNoHandover (s : State) : Moved s (execHoldFallNoHandover s) :=
  moved_of_flow ((flow_awaitHold _).trans ((flow_countNotice _ _ _).trans (flow_withMirror rfl)))

/-! ### Every command moves both lanes -/

theorem moved_exec (i : Instr) {s : State} (h : s.holdSound) : Moved s (exec i s) := by
  cases i with
  | recordFrameArrival l bytes => exact moved_recordFrameArrival l bytes s
  | creditFrameArrival l bytes => exact moved_creditFrameArrival l bytes s
  | creditFrameDue l => exact moved_creditFrameDue l s
  | silenceTimeout l => exact moved_silenceTimeout l s
  | lossOfSignal l => exact moved_lossOfSignal l s
  | attributeRecord => exact moved_attributeRecord s
  | sweep => exact moved_sweep s
  | listack => exact moved_listack s
  | time => exact moved_time s
  | forwardUnchanged l => exact moved_forwardUnchanged l s
  | controlForPartner => exact moved_controlForPartner s
  | controlCodeReject => exact moved_controlCodeReject s
  | openCase => exact moved_runCommand (keepsFlow_of_flow flow_openCase) _ _ _ s
  | cancelCase => exact moved_runCommand (keepsFlow_of_flow flow_cancelCase) _ _ _ s
  | acceptCase => exact moved_runCommand (keepsFlow_of_flow flow_acceptCase) _ _ _ s
  | bindCase => exact moved_runCommand (keepsFlow_of_flow flow_bindCase) _ _ _ s
  | forceProgress => exact moved_runCommand (keepsFlow_of_flow flow_forceProgress) _ _ _ s
  | closeCase => exact moved_runCommand (keepsFlow_of_flow flow_closeCase) _ _ _ s
  | readCase => exact moved_runCommand (keepsFlow_of_flow flow_readCase) _ _ _ s
  | admitFeed => exact moved_runCommand (keepsFlow_of_flow flow_admitFeed) _ _ _ s
  | retireFeed => exact moved_runCommand (keepsFlow_of_flow flow_retireFeed) _ _ _ s
  | readFeed => exact moved_runCommand (keepsFlow_of_flow flow_readFeed) _ _ _ s
  | setPolicy => exact moved_runCommand (keepsFlow_of_flow flow_setPolicyCommand) _ _ _ s
  | readPolicy => exact moved_runCommand (keepsFlow_of_flow flow_readPolicyCommand) _ _ _ s
  | beginProductLoad => exact moved_runCommand (keepsFlow_of_flow flow_beginLoad) _ _ _ s
  | productData => exact moved_runCommand (keepsFlow_of_flow flow_productData) _ _ _ s
  | readProduct => exact moved_runCommand (keepsFlow_of_flow flow_readProduct) _ _ _ s
  | setNoticeMask => exact moved_runCommand (keepsFlow_of_flow flow_setMask) _ _ _ s
  | clearNotices => exact moved_runCommand (keepsFlow_of_flow flow_clearNotices) _ _ _ s
  | setMode => exact moved_runCommand (keepsFlow_of_flow flow_setModeCommand) _ _ _ s
  | readStatus => exact moved_runCommand (keepsFlow_of_flow (flow_readStatus _)) _ _ _ s
  | engineReset => exact moved_runCommand engineReset_flow _ _ _ s
  | exportCases => exact moved_runCommand (keepsFlow_of_flow flow_exportCases) _ _ _ s
  | resyncPartner => exact moved_runCommand (keepsFlow_of_flow flow_resyncPartner) _ _ _ s
  | takeover => exact moved_runCommand (keepsFlow_of_flow flow_takeover) _ _ _ s
  | forcedTakeover => exact moved_runCommand (keepsFlow_of_flow flow_forcedTakeover) _ _ _ s
  | upwardArbiterChoice => exact moved_upwardArbiterChoice s
  | downwardArbiterChoice => exact moved_downwardArbiterChoice s
  | forwardedRecordCompletes l => exact moved_forwardedRecordCompletes l s
  | insertedRecordCompletes => exact moved_insertedRecordCompletes s
  | emissionRecordCompletes => exact moved_emissionRecordCompletes s
  | addInjected => exact moved_addInjected s
  | removeInjected => exact moved_removeInjected s
  | placeCommandRecord => exact moved_placeCommandRecord s
  | placeRelay => exact moved_placeRelay s
  | exportVisit => exact moved_exportVisit s
  | placeNotice => exact moved_placeNotice s
  | clockTick => exact moved_clockTick s
  | walkVisit => exact moved_walkVisit s
  | powerOnReset straps => exact moved_startUp .powerOn straps s
  | pinReset straps => exact moved_startUp .pin straps s
  | startupDelayEnd b => exact moved_startupDelayEnd b s
  | holdAssertedDuringClaim => exact moved_holdAssertedDuringClaim s
  | claimComplete => exact moved_claimComplete h
  | partnerHoldReleased => exact moved_partnerHoldReleased s
  | holdStuckTimeout => exact moved_holdStuckTimeout s
  | forcePulseEnd => exact moved_forcePulseEnd s
  | forcePulseReleased n b => exact moved_forcePulseReleased n b s
  | pairLinkDown => exact moved_pairLinkDown s
  | presenceDue => exact moved_presenceDue s
  | presence good => exact moved_presence good s
  | mirrorWrite good m => exact moved_mirrorWrite good m s
  | mirrorStop good => exact moved_mirrorStop good s
  | handover good next => exact moved_handover good next s
  | responseRelay good a => exact moved_responseRelay good a s
  | yieldRequest good => exact moved_yieldRequest good s
  | pairMessageSent => exact moved_pairMessageSent s
  | copyItemPlaced => exact moved_copyItemPlaced s
  | copyEndSent => exact moved_copyEndSent s
  | drainComplete => exact moved_drainComplete s
  | drainTimeout => exact moved_drainTimeout s
  | takeoverTimeout => exact moved_takeoverTimeout s
  | holdFallNoHandover => exact moved_holdFallNoHandover s
  | creditFrameSent l => exact moved_creditFrameSent l s

/-- The queue of commands is no part of the flow. -/
theorem moved_step {s : State} (h : s.holdSound) : Moved s (step s) := by
  unfold step
  split
  next c rest _ => exact moved_exec c (s := { s with pending := rest }) h
  next => exact moved_next s

/-- Settles O55: every command moves each lane, and every move of a lane keeps the law of R19. -/
theorem recordsAreConserved : Obligations.RecordsAreConserved := by
  unfold Obligations.RecordsAreConserved
  exact ⟨conserved_iff.mpr ⟨Lane.sound_empty true, Lane.sound_empty true⟩,
    fun s t hc hh hst => conserved_of_moves (moved_step hh t hst) hc⟩

end Sys2Proof.Machine

/-! Restoration (06_restoration_arithmetic.md): ACCEPT CASE, the Policy Set and the Product Table. What the execution
of a command leaves follows from its own effect on the state from which its record has been taken, which the lemmas of
the first part say once for a command that is refused and for one that is accepted. -/

namespace Sys2Proof.Machine

/-! ### The execution of a command that the ACTIVE engine alone admits -/

theorem inHand_role {s : State} {code : Byte} {c : Control} (h : s.inHand code c) : s.mirror.role = .active := by
  obtain ⟨-, -, -, -, -, hactive⟩ := h
  simpa [State.isActive] using hactive

/-- A command that is refused takes no effect of its own (R133). -/
theorem refused_of_own {code : Byte} {own : Control → State → Executed} {s : State} {c : Control} {why : Reason}
    (h : s.inHand code c) (hcode : code ≠ codeProductData) (hown : own c s.taken = refuse why s.taken) :
    ∃ t, runCommand code .activeOnly false own s = .next t ∧ s.taken.answered c (.reject why) t :=
  have hrole : s.mirror.role = .active := inHand_role h
  answers_taken h hcode rfl nofun hown (noted_refl _) hrole

/-- A command that is accepted leaves the state `e` to which its own effect leads but for noted writes (R133, R165). -/
theorem accepted_of_own {code : Byte} {own : Control → State → Executed} {s e e' : State} {c : Control} {r : Reply}
    (h : s.inHand code c) (hcode : code ≠ codeProductData) (hown : own c s.taken = accept e' r)
    (hnoted : Noted e e') (hrole : e.mirror.role = s.mirror.role) :
    ∃ t, runCommand code .activeOnly false own s = .next t ∧ e.answered c (.reply r) t :=
  answers_taken h hcode rfl nofun hown hnoted (hrole.trans (inHand_role h))

/-- What a command leaves where a condition decides between two outcomes. -/
theorem next_ite {p : Prop} [Decidable p] {res : Result} {A B : State → Prop}
    (hpos : p → ∃ t, res = .next t ∧ A t) (hneg : ¬p → ∃ t, res = .next t ∧ B t) :
    ∃ t, res = .next t ∧ if p then A t else B t := by
  by_cases h : p
  · simpa only [if_pos h] using hpos h
  · simpa only [if_neg h] using hneg h

theorem ofLength_some {n : Nat} {bs : List Byte} (h : bs.length = n) : ofLength n (some bs) = some bs := by
  simp [ofLength, h]

/-! ### ACCEPT CASE (R112, R113) -/

theorem named_slot_lt {s : State} {h : Handle} {x : CaseRecord} (hn : s.named h = some x) : h.slot < slotLimit := by
  unfold State.named at hn
  split at hn
  next hcur => exact hcur.1
  next => cases hn

theorem withHandle_of_named {s : State} {h : Handle} {x : CaseRecord} (act : CaseRecord → Executed)
    (hn : s.named h = some x) : withHandle h act s = act x := by
  simp only [withHandle, hn, if_neg (Nat.not_le_of_lt (named_slot_lt hn))]

/-- ACCEPT CASE of a case, its handle being current. -/
theorem acceptCase_of_named {c : Control} {bs : List Byte} {x : CaseRecord} {s : State} (hp : c.params = some bs)
    (hl : bs.length = 4) (hn : s.named (readHandle bs) = some x) :
    acceptCase c s =
      if fieldAt 3 1 bs ≠ 1 ∧ fieldAt 3 1 bs ≠ 2 then refuse .badField s
      else if x.phase ≠ .held then refuse .wrongPhase s
      else if fieldAt 3 1 bs = 2 then accept s (.accepted (readHandle bs) .held x.flags x.offerNumber)
      else
        accept (placeOffer (readHandle bs) (s.setCase (readHandle bs).slot (released s x)))
          (.accepted (readHandle bs) .anchored x.flags (released s x).offerNumber) := by
  simp only [acceptCase, hp, ofLength_some hl, withHandle_of_named _ hn, ← not_or, ite_not, ne_eq]

/-- Settles O33: the choice and the phase decide which of the four outcomes ACCEPT CASE has. -/
theorem acceptCaseReleases : Obligations.AcceptCaseReleases := by
  unfold Obligations.AcceptCaseReleases
  rintro bs h x c s hin hp hl rfl hn
  have hown := acceptCase_of_named (s := s.taken) hp hl hn
  refine next_ite (fun hbad => ?_) fun hchoice => next_ite (fun hphase => ?_) fun hheld =>
    next_ite (fun hwait => ?_) fun hasIs => ?_
  · rw [if_pos hbad] at hown
    exact refused_of_own hin (by decide) hown
  · rw [if_neg hchoice, if_pos hphase] at hown
    exact refused_of_own hin (by decide) hown
  · rw [if_neg hchoice, if_neg hheld, if_pos hwait] at hown
    exact accepted_of_own hin (by decide) hown (noted_refl _) rfl
  · rw [if_neg hchoice, if_neg hheld, if_neg hasIs] at hown
    exact accepted_of_own hin (by decide) hown
      (noted_placeOffer (noted_withCase (noted_refl s.taken) _ (released s.taken x)) _) rfl

/-! ### The Policy Set (R102, R103) -/

/-- A setting carried is cut at the end of its range that it lies beyond (R102). -/
theorem setting_some {lo hi : Nat} (h : lo ≤ hi) (held v : Nat) :
    setting lo hi held (some v) = if v < lo then lo else if hi < v then hi else v := by
  simp only [setting, clampInto]
  split_ifs <;> omega

theorem setPolicyCommand_of_read {c : Control} {q : PolicyParams} (h : readPolicy c.params = some q) (s : State) :
    setPolicyCommand c s = accept (s.setPolicy (policyWith q s.policy)) (.policy (policyWith q s.policy)) := by
  simp only [setPolicyCommand, h]

theorem readPolicyCommand_of_empty {c : Control} (h : c.params = some []) (s : State) :
    readPolicyCommand c s = accept s (.policy s.policy) := by
  simp only [readPolicyCommand, h]
  rfl

/-- Settles O34: each setting's clamp is `setting`, so that the set written is `policyWith`. -/
theorem policyIsSetAndRead : Obligations.PolicyIsSetAndRead := by
  unfold Obligations.PolicyIsSetAndRead
  refine ⟨fun c q s hin hread => ?_, fun c s hin hp => ?_⟩
  · intro clamp p p'
    have hclamp {lo hi : Nat} (h : lo ≤ hi) (held : Nat) (v : Option Nat) :
        clamp lo hi held v = setting lo hi held v := by
      cases v with
      | none => rfl
      | some v => exact (setting_some h held v).symm
    have howned : (q.owned.map (BitVec.ofNat 5)).getD p.owned = (policyWith q p).owned := by
      unfold policyWith
      cases q.owned <;> rfl
    have hpolicy : p' = policyWith q p := by
      simp only [p', howned]
      simp [hclamp, policyWith]
    rw [hpolicy]
    exact accepted_of_own hin (by decide) (setPolicyCommand_of_read hread s.taken)
      (noted_setPolicy (noted_refl s.taken) _) rfl
  · exact accepted_of_own hin (by decide) (readPolicyCommand_of_empty hp s.taken) (noted_refl _) rfl

/-! ### The load session (R143, R144) -/

/-- The code that follows a code in the window of a load session (R144). -/
def Session.follow (x : Session) (n : Nat) : Nat := if n = x.last then x.first else (n + 1) % 256

/-- The code that the pointer names once `i` entries have been written (R144). -/
def Session.codeAt (x : Session) (i : Nat) : Nat := Nat.repeat x.follow i x.pointer

/-- The last of the first `n` entries that is written at a code. -/
def Session.lastWrite (x : Session) (n code : Nat) : Option Nat :=
  (List.range n).reverse.find? (fun i => x.codeAt i = code)

theorem lastWrite_succ (x : Session) (n code : Nat) :
    x.lastWrite (n + 1) code = if x.codeAt n = code then some n else x.lastWrite n code := by
  simp only [Session.lastWrite, List.range_succ, List.reverse_append, List.reverse_singleton, List.singleton_append,
    List.find?_cons]
  by_cases h : x.codeAt n = code <;> simp [h]

theorem lastWrite_lt {x : Session} {n code i : Nat} (h : x.lastWrite n code = some i) : i < n := by
  simpa using List.mem_of_find?_eq_some h

/-- The last entry is written after all those before it. -/
theorem writeEntries_concat (rs : List RawProduct) (r : RawProduct) (x : Session) (s : State) :
    writeEntries (rs ++ [r]) x s =
      ((writeEntries rs x s).1.advance,
       (writeEntries rs x s).2.setProduct (writeEntries rs x s).1.pointer (r.checked.getD {})) := by
  induction rs generalizing x s with
  | nil => rfl
  | cons q rest ih => exact ih _ _

theorem writeEntries_session (rs : List RawProduct) (x : Session) (s : State) :
    (writeEntries rs x s).1 = { x with pointer := x.codeAt rs.length } := by
  induction rs using List.reverseRecOn with
  | nil => rfl
  | append_singleton rest r ih =>
    rw [writeEntries_concat, ih, List.length_append]
    rfl

theorem productAt_setProduct_same (s : State) (code : Nat) (p : Product) : (s.setProduct code p).productAt code = p :=
  getD_setD_same _ _ _ _

theorem productAt_setProduct_other (s : State) {code k : Nat} (p : Product) (h : k ≠ code) :
    (s.setProduct code p).productAt k = s.productAt k := getD_setD_other _ _ _ h

/-- A code holds the last entry written at it, checked, and what it held where none was (R99, R144). -/
theorem productAt_writeEntries (rs : List RawProduct) (x : Session) (s : State) (code : Nat) :
    (writeEntries rs x s).2.productAt code =
      (x.lastWrite rs.length code).elim (s.productAt code) (fun i => (rs[i]?.bind RawProduct.checked).getD {}) := by
  induction rs using List.reverseRecOn with
  | nil => rfl
  | append_singleton rest r ih =>
    rw [writeEntries_concat, writeEntries_session, List.length_append, List.length_singleton, lastWrite_succ]
    by_cases hcode : x.codeAt rest.length = code
    · rw [if_pos hcode, ← hcode, productAt_setProduct_same]
      simp
    · rw [if_neg hcode, productAt_setProduct_other _ _ (Ne.symm hcode), ih]
      cases hlast : x.lastWrite rest.length code with
      | none => rfl
      | some i => simp [List.getElem?_append_left (lastWrite_lt hlast)]

theorem noted_writeEntries {a b : State} (h : Noted a b) (rs : List RawProduct) (x : Session) :
    Noted { a with products := (writeEntries rs x b).2.products } (writeEntries rs x b).2 := by
  induction rs using List.reverseRecOn with
  | nil =>
    have hproducts : b.products = a.products := by rw [h.1]
    simpa only [writeEntries, hproducts] using h
  | append_singleton rest r ih =>
    rw [writeEntries_concat]
    exact noted_setProduct ih _ _

theorem noted_cu {a b : State} (h : Noted a b) (u : CommandUnit) : Noted { a with cu := u } { b with cu := u } :=
  ⟨by dsimp only; conv_lhs => rw [h.1], h.2⟩

/-! ### The check of an entry (R98, R99) -/

theorem kindOf_of_gt {n : Nat} (h : 3 < n) : kindOf n = none := by
  obtain ⟨m, rfl⟩ : ∃ m, n = m + 4 := ⟨n - 4, by omega⟩
  rfl

/-- A kind other than NONE and the greatest total of its entries (R98). -/
theorem kindOf_of_mem {n : Nat} (h1 : 1 ≤ n) (h3 : n ≤ 3) :
    ∃ k, kindOf n = some k ∧ k ≠ .none ∧ greatestTotal k = if n = 3 then 255 else 400 := by
  obtain rfl | rfl | rfl : n = 1 ∨ n = 2 ∨ n = 3 := by omega
  · exact ⟨.calendar, rfl, nofun, rfl⟩
  · exact ⟨.rolling, rfl, nofun, rfl⟩
  · exact ⟨.carnet, rfl, nofun, rfl⟩

theorem restoreOf_isSome {n : Nat} : (restoreOf n).isSome = true ↔ n = 1 ∨ n = 2 ∨ n = 3 := by
  unfold restoreOf
  split <;> simp_all

theorem checked_of_kind_zero {r : RawProduct} (h : r.kind = 0) : r.checked = some {} := by
  simp [RawProduct.checked, h, kindOf]

theorem checked_of_unknown_kind {r : RawProduct} (h : 3 < r.kind) : r.checked = none := by
  simp [RawProduct.checked, kindOf_of_gt h]

theorem checked_of_known_kind {r : RawProduct} {k : ProductKind} (hk : kindOf r.kind = some k) (hne : k ≠ .none) :
    r.checked =
      (restoreOf r.restore).bind (fun m =>
        if r.listPrice ≤ 1000000 ∧ 1 ≤ r.total ∧ r.total ≤ greatestTotal k ∧ r.convertFee ≤ 100000 then
          some ⟨k, m, r.listPrice, r.total, r.convertFee⟩
        else none) := by
  unfold RawProduct.checked
  rw [hk]
  cases k with
  | none => exact absurd rfl hne
  | calendar | rolling | carnet => cases restoreOf r.restore <;> rfl

/-- An entry of a kind other than NONE is written as carried where every field is in range (R99). -/
theorem checked_inRange {r : RawProduct} (h1 : 1 ≤ r.kind) (h3 : r.kind ≤ 3) :
    let inRange :=
      (r.restore = 1 ∨ r.restore = 2 ∨ r.restore = 3) ∧ r.listPrice ≤ 1000000 ∧ 1 ≤ r.total ∧
        r.total ≤ (if r.kind = 3 then 255 else 400) ∧ r.convertFee ≤ 100000
    (¬inRange → r.checked = none) ∧
      (inRange → ∃ k m, kindOf r.kind = some k ∧ restoreOf r.restore = some m ∧
        r.checked = some ⟨k, m, r.listPrice, r.total, r.convertFee⟩) := by
  obtain ⟨k, hk, hne, htotal⟩ := kindOf_of_mem h1 h3
  have hchecked := checked_of_known_kind hk hne
  rw [htotal] at hchecked
  rw [← restoreOf_isSome]
  cases hm : restoreOf r.restore with
  | none => exact ⟨fun _ => by rw [hchecked, hm]; rfl, fun hin => absurd hin.1 nofun⟩
  | some m =>
    rw [hm] at hchecked
    refine ⟨fun hout => ?_, fun hin => ⟨k, m, hk, rfl, ?_⟩⟩
    · rw [hchecked]
      exact if_neg fun hin => hout ⟨rfl, hin⟩
    · rw [hchecked]
      exact if_pos hin.2

/-! ### The commands of the Product Table (R99, R100, R143 to R145) -/

theorem beginLoad_of_length {c : Control} {bs : List Byte} (hp : c.params = some bs) (hl : bs.length = 4) (s : State) :
    beginLoad c s =
      if 255 < fieldAt 0 2 bs ∨ 255 < fieldAt 2 2 bs then refuse .badField s
      else
        accept { s with cu := { s.cu with session := some ⟨fieldAt 0 2 bs, fieldAt 2 2 bs, fieldAt 0 2 bs⟩ } }
          (.loadBegun (fieldAt 0 2 bs) (fieldAt 2 2 bs) (runLength 256 (fieldAt 0 2 bs) (fieldAt 2 2 bs))
            (fieldAt 0 2 bs)) := by
  simp only [beginLoad, hp, ofLength_some hl]

theorem readProduct_of_length {c : Control} {bs : List Byte} (hp : c.params = some bs) (hl : bs.length = 2)
    (s : State) :
    readProduct c s =
      if 255 < fieldAt 0 2 bs then refuse .badField s
      else accept s (.product (fieldAt 0 2 bs) (s.productAt (fieldAt 0 2 bs))) := by
  simp only [readProduct, hp, ofLength_some hl]

theorem beginLoad_opens_session {c : Control} {bs : List Byte} {s : State} (hin : s.inHand 0x22 c)
    (hp : c.params = some bs) (hl : bs.length = 4) :
    let a := fieldAt 0 2 bs
    let b := fieldAt 2 2 bs
    ∃ t, execBeginProductLoad s = .next t ∧
      if 255 < a ∨ 255 < b then s.taken.answered c (.reject .badField) t
      else
        State.answered { s.taken with cu := { s.cu with session := some ⟨a, b, a⟩ } } c
          (.reply (.loadBegun a b (runLength 256 a b) a)) t := by
  have hown := beginLoad_of_length hp hl s.taken
  refine next_ite (fun hrange => ?_) fun hrange => ?_
  · exact refused_of_own hin (by decide) (hown.trans (if_pos hrange))
  · exact accepted_of_own hin (by decide) (hown.trans (if_neg hrange)) (noted_refl _) rfl

theorem readProduct_answers_entry {c : Control} {bs : List Byte} {s : State} (hin : s.inHand 0x24 c)
    (hp : c.params = some bs) (hl : bs.length = 2) :
    ∃ t, execReadProduct s = .next t ∧
      if 255 < fieldAt 0 2 bs then s.taken.answered c (.reject .badField) t
      else s.taken.answered c (.reply (.product (fieldAt 0 2 bs) (s.productAt (fieldAt 0 2 bs)))) t := by
  have hown := readProduct_of_length hp hl s.taken
  refine next_ite (fun hrange => ?_) fun hrange => ?_
  · exact refused_of_own hin (by decide) (hown.trans (if_pos hrange))
  · exact accepted_of_own hin (by decide) (hown.trans (if_neg hrange)) (noted_refl _) rfl

/-- PRODUCT DATA alone does not end a load session (R145). -/
theorem answers_productData {s e e' : State} {c : Control} {v : Verdict} (h : s.inHand codeProductData c)
    (hown : productData c { s.taken with cu := s.cu } = ⟨e', none, v⟩) (hnoted : Noted e e')
    (hrole : e.mirror.role = s.mirror.role) : ∃ t, execProductData s = .next t ∧ e.answered c v t := by
  refine answers h rfl nofun ?_ hnoted (hrole.trans (inHand_role h))
  obtain ⟨-, -, -, -, -, hactive⟩ := h
  rw [← taken_eq hactive] at hown
  exact hown

theorem productData_without_session {c : Control} {rs : List RawProduct} {s : State}
    (hread : readProducts c.params = some rs) (hsession : s.cu.session = none) :
    productData c s = refuse .noLoadSession s := by
  simp only [productData, hread, hsession]

theorem productData_with_session {c : Control} {rs : List RawProduct} {x : Session} {s : State}
    (hread : readProducts c.params = some rs) (hsession : s.cu.session = some x) :
    productData c s =
      accept
        { (writeEntries rs x s).2 with
          cu := { s.cu with session := some { x with pointer := x.codeAt rs.length } } }
        (.loaded rs.length (rs.countP (fun r => r.checked.isNone)) (x.codeAt rs.length)) := by
  have hcu : (writeEntries rs x s).2.cu = s.cu := by rw [(noted_writeEntries (noted_refl s) rs x).1]
  simp only [productData, hread, hsession, writeEntries_session, hcu]

/-- Settles O35: the last entry written at a code is what it holds, by induction on the entries from the last one. -/
theorem productTableIsLoaded : Obligations.ProductTableIsLoaded := by
  unfold Obligations.ProductTableIsLoaded
  refine ⟨fun c bs s hin hp hl => beginLoad_opens_session hin hp hl, fun c rs s hin hread => ?_,
    fun r => ⟨checked_of_kind_zero, checked_of_unknown_kind, checked_inRange⟩,
    fun c bs s hin hp hl => readProduct_answers_entry hin hp hl⟩
  cases hsession : s.cu.session with
  | none =>
    exact answers_productData hin
      (productData_without_session (s := { s.taken with cu := s.cu }) hread hsession) (noted_refl _) rfl
  | some x =>
    obtain ⟨t, ht, hanswered⟩ := answers_productData hin
      (productData_with_session (s := { s.taken with cu := s.cu }) hread hsession)
      (noted_cu (noted_writeEntries (noted_refl _) rs x) _) rfl
    refine ⟨t, ht, _, fun code => ?_, hanswered⟩
    refine (productAt_writeEntries rs x { s.taken with cu := s.cu } code).trans ?_
    split
    next i hlast =>
      rw [show x.lastWrite rs.length code = some i from hlast]
      rfl
    next hlast =>
      rw [show x.lastWrite rs.length code = none from hlast]
      rfl

end Sys2Proof.Machine

/-! The capacities (00, 3), whose statement on the List Queue asks nothing of the Hold line (10, 10.1). -/

namespace Sys2Proof.Machine

/-- The delta of the ADD entry of the case in slot 69, use count 4. -/
def addDelta : Delta := ⟨⟨69, 4⟩, .add, 0, 1, none⟩

/-- An ACTIVE engine that claims, which `State.holdSound` rules out (R163): the delta of a cancelled ADD is in
transmission, and its claim runs its course. -/
def claimingWhileActive : State :=
  { Tests.with69 Tests.act .voiding with
    pending := [.claimComplete]
    listQueue := [⟨⟨69, 4⟩, .add, true⟩]
    station := { tx := .delta addDelta }
    mirror := { Tests.act.mirror with stage := .claiming .startup } }

theorem claimingWhileActive_listsSound : claimingWhileActive.listsSound := by
  refine ⟨by decide, List.pairwise_singleton _ _, ?_, ?_, .nil, nofun⟩
  · intro e he
    obtain rfl := List.mem_singleton.mp he
    exact ⟨Tests.card70161 .voiding, rfl, rfl⟩
  · intro d hd
    obtain rfl := Tx.delta.inj hd
    exact ⟨rfl, _, rfl, rfl, rfl⟩

/-- The cancelled ADD has become a REMOVE (R94) while its delta is in transmission. -/
theorem claimingWhileActive_completes :
    (Tests.next (step claimingWhileActive)).map (fun t => (t.station.tx, t.listQueue)) =
      some (.delta addDelta, [⟨⟨69, 4⟩, .remove, false⟩]) := by decide

theorem eq_next_of_next {r : Result} {t : State} (h : Tests.next r = some t) : r = .next t := by
  cases r with
  | next u => rw [Option.some.inj h]
  | fault | refused => cases h

/-- Refutes O54: its clause on the lists does not ask that the Hold line is as R163 has it, and on an ACTIVE engine
whose claim completes the oldest entry becomes a REMOVE under the ADD in transmission. -/
theorem not_capacitiesAreKept : ¬ Obligations.CapacitiesAreKept := by
  unfold Obligations.CapacitiesAreKept
  rintro ⟨-, -, hlists, -⟩
  obtain ⟨t, hnext, hafter⟩ := Option.map_eq_some_iff.mp claimingWhileActive_completes
  have hsound : t.listsSound :=
    hlists .claimComplete [] claimingWhileActive t rfl (by simp) claimingWhileActive_listsSound (eq_next_of_next hnext)
  obtain ⟨htx, hqueue⟩ := Prod.mk.inj hafter
  obtain ⟨-, -, -, hdelta, -⟩ := hsound
  obtain ⟨-, e, he, -, hkind⟩ := hdelta addDelta htx
  rw [hqueue] at he
  obtain rfl := Option.some.inj he
  cases hkind

end Sys2Proof.Machine

/-! What every event keeps (01, 02, 04, 06, 10). An event is a run of `Move`s: writes to a table, each with what its
place in the model gives of it, and steps that leave the tables as they are (`Quiet`). Each invariant is kept by every
move, and every command but a POWER-ON or PIN reset and a mirror write is a run of moves. -/

namespace Sys2Proof.Machine

/-! ### What stands beside the tables -/

/-- The window and the pointer of a load session name codes of the Product Table (R143). -/
def Session.Coded (x : Session) : Prop := x.first < 256 ∧ x.last < 256 ∧ x.pointer < 256

/-- A load session names codes of the Product Table. -/
def State.sessionSound (s : State) : Prop := ∀ x ∈ s.cu.session, x.Coded

/-- The pending group carries payloads in their ranges. -/
def State.groupSound (s : State) : Prop := ∀ m ∈ s.mirror.group, m.payload.inRange = true

theorem groupSound_of_empty {s : State} (h : s.mirror.group = []) : s.groupSound := by
  simp [State.groupSound, h]

/-- A step keeps what the invariants ask of everything that is no table: the notices, the load session, the pending
group and the Hold line. -/
structure Beside (s t : State) : Prop where
  notices : SMap.wf s.notices.entries {} 17 → SMap.wf t.notices.entries {} 17
  session : s.sessionSound → t.sessionSound
  group : s.groupSound → t.groupSound
  hold : s.holdSound → t.holdSound

theorem beside_refl (s : State) : Beside s s := ⟨id, id, id, id⟩

theorem Beside.trans {s t u : State} (h : Beside s t) (k : Beside t u) : Beside s u where
  notices := k.notices ∘ h.notices
  session := k.session ∘ h.session
  group := k.group ∘ h.group
  hold := k.hold ∘ h.hold

/-- What the invariants read of the Mirror Unit. -/
def MirrorUnit.standing (m : MirrorUnit) : Role × HoldStage × Bool × List MirrorWrite :=
  (m.role, m.stage, m.holdOut, m.group)

theorem standing_of_pairing {m m' : MirrorUnit} (h : m'.pairing = m.pairing) : m'.standing = m.standing :=
  congrArg (fun x : Pairing => (x.role, x.stage, x.holdOut, x.group)) h

/-- A step that keeps the role and the Hold line, the notices and the load session. -/
theorem beside_of_same {s t : State} (standing : t.mirror.standing = s.mirror.standing)
    (entries : t.notices.entries = s.notices.entries) (session : t.cu.session = s.cu.session) : Beside s t := by
  simp only [MirrorUnit.standing, Prod.mk.injEq] at standing
  obtain ⟨role, stage, holdOut, group⟩ := standing
  refine ⟨?_, ?_, ?_, ?_⟩
  · rw [entries]; exact id
  · simp only [State.sessionSound, session]; exact id
  · simp only [State.groupSound, group]; exact id
  · simp only [State.holdSound, State.isActive, role, stage, holdOut]; exact id

/-- The writes noted for mirroring stand beside nothing that an invariant asks for. -/
theorem Beside.noted {s e e' : State} (h : Beside s e) (n : Noted e e') : Beside s e' := by
  rw [n.1]
  exact ⟨h.notices, h.session, h.group, h.hold⟩

theorem beside_of_noted {s e t : State} (n : Noted e t) (standing : e.mirror.standing = s.mirror.standing)
    (entries : e.notices.entries = s.notices.entries) (session : e.cu.session = s.cu.session) : Beside s t :=
  (beside_of_same standing entries session).noted n

/-- A notice class written. -/
theorem beside_setNotice (s : State) (c : NoticeClass) (x : NoticeEntry) : Beside s (s.setNotice c x) := by
  refine Beside.noted ?_ (noted_setNotice (noted_refl s) c x)
  refine ⟨fun h => wf_setD h ?_ x, id, id, id⟩
  cases c <;> decide

/-! ### Steps that leave the tables as they are -/

/-- A step that keeps the tables, and what the invariants ask of the rest. -/
structure Quiet (s t : State) : Prop where
  tables : t.tables = s.tables
  beside : Beside s t

theorem quiet_refl (s : State) : Quiet s s := ⟨rfl, beside_refl s⟩

theorem Quiet.trans {s t u : State} (h : Quiet s t) (k : Quiet t u) : Quiet s u :=
  ⟨k.tables.trans h.tables, h.beside.trans k.beside⟩

/-- All that the invariants read. -/
def State.read (s : State) : Tables × (Role × HoldStage × Bool × List MirrorWrite) × SMap NoticeEntry × Option Session :=
  (s.tables, s.mirror.standing, s.notices.entries, s.cu.session)

theorem quiet_of_same {s t : State} (h : t.read = s.read) : Quiet s t := by
  simp only [State.read, Prod.mk.injEq] at h
  obtain ⟨tables, standing, entries, session⟩ := h
  exact ⟨tables, beside_of_same standing entries session⟩

theorem quiet_of_ite {p : Prop} [Decidable p] {s a b : State} (ha : p → Quiet s a) (hb : ¬p → Quiet s b) :
    Quiet s (if p then a else b) := by
  split
  next h => exact ha h
  next h => exact hb h

theorem quiet_setNotice (s : State) (c : NoticeClass) (x : NoticeEntry) : Quiet s (s.setNotice c x) :=
  ⟨rfl, beside_setNotice s c x⟩

theorem quiet_countNotice (c : NoticeClass) (sub : Subject) (s : State) : Quiet s (countNotice c sub s) :=
  quiet_setNotice s c _

theorem quiet_countIf (b : Bool) (c : NoticeClass) (sub : Subject) (s : State) : Quiet s (countIf b c sub s) := by
  cases b
  · exact quiet_refl s
  · exact quiet_countNotice c sub s

theorem quiet_clearNotice (c : NoticeClass) (s : State) : Quiet s (clearNotice c s) := quiet_setNotice s c _

theorem quiet_triggerIf (b : Bool) (s : State) : Quiet s (triggerIf b s) := quiet_of_same rfl

theorem quiet_trigger (s : State) : Quiet s (trigger s) := quiet_of_same rfl

theorem quiet_formCompletion (ok : Bool) (n : Nat) (d : Option Detail) (s : State) :
    Quiet s (formCompletion ok n d s) := by
  refine Quiet.trans ?_ (quiet_countIf _ _ _ _)
  exact ⟨rfl, beside_of_same rfl rfl (session_complete _ _ _ _ _)⟩

theorem quiet_failTakeover (why : Detail) (s : State) : Quiet s (failTakeover why s) :=
  (quiet_formCompletion _ _ _ s).trans (quiet_of_same rfl)

theorem quiet_copyBegin (s : State) : Quiet s { s with mirror := s.mirror.copyBegin } := by
  unfold MirrorUnit.copyBegin
  split <;> exact quiet_of_same rfl

/-- A STANDBY that asserts no Hold may take any stage but a claim, its pending group discarded. -/
theorem quiet_pulse (s : State) (h : s.isActive = false) :
    Quiet s { s with mirror := { s.mirror with group := [], forceOut := true, stage := .pulsing, holdOut := false } } := by
  have hr := role_of_standby h
  refine ⟨rfl, id, id, fun _ => groupSound_of_empty rfl, fun _ => ?_⟩
  simp [State.holdSound, State.isActive, hr, HoldStage.isClaim]

theorem quiet_cu {s : State} {u : CommandUnit} (h : u.session = s.cu.session) : Quiet s { s with cu := u } :=
  ⟨rfl, beside_of_same rfl rfl h⟩

theorem quiet_beginWork (b : Busy) (s : State) : Quiet s (beginWork b s) := by
  have h1 : Quiet s { s with cu := { s.cu with busy := some { b with begun := true } } } := quiet_cu rfl
  unfold beginWork
  dsimp only
  split
  · exact h1
  · refine quiet_of_ite (fun _ => (quiet_copyBegin s).trans (quiet_cu rfl)) fun _ => ?_
    exact h1.trans (quiet_formCompletion _ _ _ _)
  · exact h1.trans (quiet_of_same rfl)
  · split
    next => exact quiet_cu rfl
    next h => exact (quiet_pulse s (eq_false_of_ne_true h)).trans (quiet_cu rfl)

theorem quiet_answerPlaced (a : Answer) (s : State) : Quiet s (answerPlaced a s) := by
  unfold answerPlaced
  split
  · exact quiet_refl s
  · split
    · exact quiet_of_ite (fun _ => quiet_refl s) fun _ => quiet_beginWork _ s
    · exact quiet_refl s
  · exact quiet_cu rfl

/-- The Command Unit's oldest record goes to its place (R15, R170). -/
theorem quiet_placeAnswer (s : State) : Quiet s (placeAnswer s) := by
  unfold placeAnswer
  split
  · exact quiet_refl s
  · refine Quiet.trans ?_ (quiet_answerPlaced _ _)
    refine ⟨rfl, beside_of_same ?_ rfl rfl⟩
    dsimp only
    split <;> rfl

theorem quiet_placeAnswers (k : Nat) (s : State) : Quiet s (placeAnswers k s) := by
  induction k generalizing s with
  | zero => exact quiet_refl s
  | succ k ih => exact quiet_of_ite (fun _ => (quiet_placeAnswer s).trans (ih _)) fun _ => quiet_refl s

theorem quiet_flushAnswers (s : State) : Quiet s (flushAnswers s) := quiet_placeAnswers _ s

theorem quiet_stopped (report : Bool) (s : State) : Quiet s { s with mirror := s.mirror.stopped report } :=
  quiet_of_same rfl

theorem quiet_stopMirroring (why : Detail) (report : Bool) (s : State) : Quiet s (stopMirroring why report s) := by
  have h1 := (quiet_stopped report s).trans (quiet_countNotice .mirrorStale (.line .pair) _)
  refine Quiet.trans ?_ (quiet_flushAnswers _)
  split
  · exact h1.trans (quiet_formCompletion _ _ _ _)
  · exact h1

theorem quiet_placeGroup (ps : List Payload) (s : State) : Quiet s (placeGroup ps s) := by
  induction ps generalizing s with
  | nil => exact quiet_refl s
  | cons p rest ih =>
    refine quiet_of_ite (fun _ => Quiet.trans ?_ (ih _)) fun _ => quiet_stopMirroring _ _ s
    exact quiet_of_same rfl

theorem quiet_finish (s : State) : Quiet s (finish s) := by
  have hgroup : Quiet s (closeGroup s) := by
    refine Quiet.trans ?_ (quiet_placeGroup _ _)
    exact quiet_of_same rfl
  exact hgroup.trans ⟨rfl, beside_of_same (standing_of_pairing (pump_pairing _)) rfl rfl⟩

end Sys2Proof.Machine

namespace Sys2Proof.Machine

/-! ### Moves of the tables -/

/-- The tables that the invariants read one by one. -/
structure Ledger where
  slots : SMap Slot
  spill : SMap Nat
  feeds : SMap Feed
  horizon : Horizon
  products : SMap Product
  policy : Policy

def State.ledger (s : State) : Ledger := ⟨s.slots, s.spill, s.feeds, s.horizon, s.products, s.policy⟩

/-- A feed entry written over another: an ACTIVE one stands above H and Vs, or above what an ACTIVE one held (R71). -/
def Feed.Follows (z : Horizon) (f x : Feed) : Prop :=
  x.active = true →
    (f.active = true ∧ f.sweep ≤ x.sweep ∧ f.cleared ≤ x.cleared) ∨ (z.h ≤ x.sweep ∧ z.vs ≤ x.cleared)

/-- Everything an event but a reset or a mirror write does to the tables that the invariants read. -/
inductive Move (s : State) : State → Prop where
  | other {t : State} (h : t.ledger = s.ledger) (hb : Beside s t) : Move s t
  | write {n : Nat} {c d : CaseRecord} (hc : s.caseAt n = some c) (hd : d.card = c.card) : Move s (s.setCase n d)
  | fill {n : Nat} {c : CaseRecord} (hl : lookup c.card s = none) (ha : allocate c.card s = some n) :
      Move s (s.fillSlot n { s.slotAt n with case := some c })
  | free {n : Nat} {c : CaseRecord} (u : Byte) (hc : s.caseAt n = some c) : Move s (s.fillSlot n ⟨u, none⟩)
  | removals : Move s (dropRemovals s.removals s)
  | feed {n : Nat} {x : Feed} (hn : n < 64) (hx : (s.feedAt n).Follows s.horizon x) : Move s (s.setFeed n x)
  | minima : Move s (s.setHorizon s.minima)
  | load {x : Session} (hx : s.cu.session = some x) (rs : List RawProduct) :
      Move s { (writeEntries rs x s).2 with
        cu := { (writeEntries rs x s).2.cu with session := some (writeEntries rs x s).1 } }
  | policy (q : PolicyParams) : Move s (s.setPolicy (policyWith q s.policy))

/-- A run of moves. -/
inductive Moves (s : State) : State → Prop where
  | refl : Moves s s
  | step {t u : State} (h : Moves s t) (m : Move t u) : Moves s u

theorem moves_single {s t : State} (h : Move s t) : Moves s t := .step .refl h

theorem Moves.trans {s t u : State} (h : Moves s t) (k : Moves t u) : Moves s u := by
  induction k with
  | refl => exact h
  | step _ m ih => exact .step ih m

theorem Quiet.moves {s t : State} (h : Quiet s t) : Moves s t :=
  moves_single (.other (by
    have hs := congrArg Tables.slots h.tables
    have hp := congrArg Tables.spill h.tables
    have hf := congrArg Tables.feeds h.tables
    have hh := congrArg Tables.horizon h.tables
    have hd := congrArg Tables.products h.tables
    have hq := congrArg Tables.policy h.tables
    exact Ledger.mk.injEq _ _ _ _ _ _ _ _ _ _ _ _ ▸ ⟨hs, hp, hf, hh, hd, hq⟩) h.beside)

theorem Session.Coded.advance {x : Session} (h : x.Coded) : x.advance.Coded := by
  obtain ⟨hfirst, hlast, hpointer⟩ := h
  refine ⟨hfirst, hlast, ?_⟩
  simp only [Session.advance]
  split <;> omega

theorem coded_writeEntries (rs : List RawProduct) {x : Session} (s : State) (h : x.Coded) :
    (writeEntries rs x s).1.Coded := by
  induction rs generalizing x s with
  | nil => exact h
  | cons r rest ih => exact ih _ h.advance

/-- Entries written one after another, each at a code of the Product Table (R144). -/
theorem wf_writeEntries (rs : List RawProduct) {x : Session} {s : State} (hs : SMap.wf s.products {} 256)
    (h : x.Coded) : SMap.wf (writeEntries rs x s).2.products {} 256 := by
  induction rs generalizing x s with
  | nil => exact hs
  | cons r rest ih => exact ih (wf_setD hs h.2.2 _) h.advance

theorem noted_load (x : Session) (rs : List RawProduct) (s : State) :
    Noted
      { s with
        products := (writeEntries rs x s).2.products
        cu := { (writeEntries rs x s).2.cu with session := some (writeEntries rs x s).1 } }
      { (writeEntries rs x s).2 with
        cu := { (writeEntries rs x s).2.cu with session := some (writeEntries rs x s).1 } } :=
  noted_cu (noted_writeEntries (noted_refl s) rs x) _

theorem noted_dropRemovals {a b : State} (h : Noted a b) (xs : List (Nat × CaseRecord)) :
    Noted { a with slots := (dropRemovals xs b).slots } (dropRemovals xs b) := by
  induction xs generalizing a b with
  | nil =>
    have hslots : b.slots = a.slots := by rw [h.1]
    simpa only [dropRemovals, hslots] using h
  | cons x rest ih =>
    have hnoted := ih (noted_setCase h x.1 { x.2 with removalVersion := none })
    exact hnoted

/-- Every move keeps what stands beside the tables. -/
theorem Move.beside {s t : State} (m : Move s t) : Beside s t := by
  cases m with
  | other _ hb => exact hb
  | write _ _ => exact beside_of_noted (noted_setCase (noted_refl s) _ _) rfl rfl rfl
  | fill _ _ => exact beside_of_noted (noted_fillSlot (noted_refl s) _ _) rfl rfl rfl
  | free _ _ => exact beside_of_noted (noted_fillSlot (noted_refl s) _ _) rfl rfl rfl
  | removals => exact beside_of_noted (noted_dropRemovals (noted_refl s) _) rfl rfl rfl
  | feed _ _ => exact beside_of_noted (noted_setFeed (noted_refl s) _ _) rfl rfl rfl
  | minima => exact beside_of_noted (noted_setHorizon (noted_refl s) _) rfl rfl rfl
  | @load x hx rs =>
    refine Beside.noted ?_ (noted_load x rs s)
    refine ⟨id, fun h => ?_, id, id⟩
    rintro _ ⟨⟩
    exact coded_writeEntries rs s (h x hx)
  | policy q => exact beside_of_noted (noted_setPolicy (noted_refl s) _) rfl rfl rfl

theorem Moves.beside {s t : State} (m : Moves s t) : Beside s t := by
  induction m with
  | refl => exact beside_refl s
  | step _ hm ih => exact ih.trans hm.beside

end Sys2Proof.Machine

namespace Sys2Proof.Machine

/-! ### Slots, lookups and spill counts -/

theorem getD_setD {α : Type} [DecidableEq α] (m : SMap α) (d : α) (k j : Nat) (v : α) :
    SMap.getD (SMap.setD m d k v) d j = if j = k then v else SMap.getD m d j := by
  split
  next h => rw [h, getD_setD_same]
  next h => exact getD_setD_other m d v h

theorem sorted_setD {α : Type} [DecidableEq α] {m : SMap α} (h : SMap.sorted m) (d : α) (k : Nat) (v : α) :
    SMap.sorted (SMap.setD m d k v) := by
  unfold SMap.setD
  split
  · exact sorted_del h k
  · exact sorted_put h k v

/-- A member of a table written in one place is what was written there, or was a member before. -/
theorem mem_setD {α : Type} [DecidableEq α] {m : SMap α} {d v : α} {k : Nat} {e : Nat × α}
    (h : e ∈ SMap.setD m d k v) : e = (k, v) ∨ e ∈ m := by
  unfold SMap.setD at h
  split at h
  · exact .inr (List.mem_filter.mp h).1
  · exact mem_put h

/-- What a place holds is listed, or is the default. -/
theorem mem_or_default {α : Type} (m : SMap α) (d : α) (k : Nat) : (k, SMap.getD m d k) ∈ m ∨ SMap.getD m d k = d := by
  unfold SMap.getD
  cases h : SMap.look m k with
  | none => exact .inr rfl
  | some v => exact .inl (mem_of_look h)

theorem slotAt_setSlot (s : State) (n m : Nat) (x : Slot) :
    (s.setSlot n x).slotAt m = if m = n then x else s.slotAt m := getD_setD _ _ _ _ _

theorem caseAt_setSlot (s : State) (n m : Nat) (x : Slot) :
    (s.setSlot n x).caseAt m = if m = n then x.case else s.caseAt m := by
  unfold State.caseAt
  rw [slotAt_setSlot]
  split <;> rfl

theorem caseAt_setCase (s : State) (n m : Nat) (c : CaseRecord) :
    (s.setCase n c).caseAt m = if m = n then some c else s.caseAt m := caseAt_setSlot s n m _

theorem caseAt_fillSlot (s : State) (n m : Nat) (x : Slot) :
    (s.fillSlot n x).caseAt m = if m = n then x.case else s.caseAt m := caseAt_setSlot s n m x

/-- A live slot is listed. -/
theorem mem_of_caseAt {s : State} {n : Nat} {c : CaseRecord} (h : s.caseAt n = some c) : (n, s.slotAt n) ∈ s.slots := by
  rcases mem_or_default s.slots {} n with hm | hd
  · exact hm
  · have hn : (s.slotAt n).case = none := congrArg Slot.case hd
    cases hn.symm.trans h

theorem homeSet_lt (card : Nat) : homeSet card < 512 := Nat.mod_lt _ (by decide)

theorem mem_wayList {n set : Nat} : n ∈ wayList set ↔ n / 4 = set := by
  simp only [wayList, List.mem_cons, List.not_mem_nil, or_false]
  omega

theorem mem_spillList {n : Nat} : n ∈ spillList ↔ spillBase ≤ n ∧ n < slotLimit := by
  simp only [spillList, List.mem_range'_1, spillBase, slotLimit]

theorem holdsCard_iff {s : State} {card n : Nat} :
    s.holdsCard card n = true ↔ ∃ c, s.caseAt n = some c ∧ c.card = card := by
  unfold State.holdsCard
  cases s.caseAt n <;> simp

theorem find?_of_unique {α : Type} {p : α → Bool} {xs : List α} {a : α} (hm : a ∈ xs) (ha : p a = true)
    (hu : ∀ b, p b = true → b = a) : xs.find? p = some a := by
  cases hf : xs.find? p with
  | none => exact absurd ha (by simpa using List.find?_eq_none.mp hf a hm)
  | some b => rw [hu b (List.find?_some hf)]

/-- What the lookup of a card finds holds that card, in a slot that may hold it. -/
theorem lookup_holds {s : State} {card n : Nat} (h : lookup card s = some n) :
    n < slotLimit ∧ ∃ c, s.caseAt n = some c ∧ c.card = card := by
  unfold lookup at h
  split at h
  next m hm =>
    obtain rfl := Option.some.inj h
    have hset := homeSet_lt card
    have hway := mem_wayList.mp (List.mem_of_find?_eq_some hm)
    exact ⟨by simp only [slotLimit]; omega, holdsCard_iff.mp (List.find?_some hm)⟩
  next =>
    split at h
    · cases h
    · exact ⟨(mem_spillList.mp (List.mem_of_find?_eq_some h)).2, holdsCard_iff.mp (List.find?_some h)⟩

/-- In a sound Case Table the lookup finds the one slot that holds the card (R21). -/
theorem lookup_iff {s : State} (hs : s.caseTableSound) (card n : Nat) :
    lookup card s = some n ↔ ∃ c, s.caseAt n = some c ∧ c.card = card := by
  refine ⟨fun h => (lookup_holds h).2, ?_⟩
  rintro ⟨c, hc, rfl⟩
  obtain ⟨-, hplace, honce, hspill⟩ := hs
  obtain ⟨hlimit, hset⟩ := hplace n c hc
  have hn : s.holdsCard c.card n = true := holdsCard_iff.mpr ⟨c, hc, rfl⟩
  have hu (m : Nat) (hm : s.holdsCard c.card m = true) : m = n := by
    obtain ⟨d, hd, hcard⟩ := holdsCard_iff.mp hm
    exact honce m n d c hd hc hcard
  unfold lookup
  split
  next m hm => rw [hu m (List.find?_some hm)]
  next hways =>
    have hbase : spillBase ≤ n := by
      by_contra hlt
      have hway := mem_wayList.mpr (hset (Nat.lt_of_not_le hlt))
      exact absurd hn (by simpa using List.find?_eq_none.mp hways n hway)
    have hmem : n ∈ spillList := mem_spillList.mpr ⟨hbase, hlimit⟩
    have hpos : s.spillAt (homeSet c.card) ≠ 0 := by
      rw [hspill]
      exact (List.countP_pos_iff.mpr ⟨n, hmem, by simp [hc]⟩).ne'
    rw [if_neg hpos]
    exact find?_of_unique hmem hn hu

/-- In a sound Case Table a card that the lookup does not find is in no live case. -/
theorem card_ne_of_lookup {s : State} (hs : s.caseTableSound) {card : Nat} (h : lookup card s = none) {n : Nat}
    {c : CaseRecord} (hc : s.caseAt n = some c) : c.card ≠ card := by
  intro hcard
  rw [(lookup_iff hs card n).mpr ⟨c, hc, hcard⟩] at h
  cases h

/-- A new case takes a free slot that may hold it (R22). -/
theorem allocate_free {s : State} {card n : Nat} (h : allocate card s = some n) :
    s.caseAt n = none ∧ n < slotLimit ∧ (n < spillBase → n / 4 = homeSet card) := by
  have hfree {m : Nat} (hm : s.isFree m = true) : s.caseAt m = none := by simpa [State.isFree] using hm
  unfold allocate at h
  split at h
  next m hm =>
    obtain rfl := Option.some.inj h
    have hset := homeSet_lt card
    have hway := mem_wayList.mp (List.mem_of_find?_eq_some hm)
    exact ⟨hfree (List.find?_some hm), by simp only [slotLimit]; omega, fun _ => hway⟩
  next =>
    have hmem := mem_spillList.mp (List.mem_of_find?_eq_some h)
    exact ⟨hfree (List.find?_some h), hmem.2, fun hlt => absurd hlt (Nat.not_lt_of_le hmem.1)⟩

theorem getD_raised (m : SMap Nat) (k set : Nat) :
    SMap.getD (SMap.setD m 0 k (SMap.getD m 0 k + 1)) 0 set = SMap.getD m 0 set + (k == set).toNat := by
  rw [getD_setD]
  by_cases h : set = k
  · simp [h]
  · simp [h, Ne.symm h]

theorem getD_lowered (m : SMap Nat) (k set : Nat) :
    SMap.getD (SMap.setD m 0 k (SMap.getD m 0 k - 1)) 0 set = SMap.getD m 0 set - (k == set).toNat := by
  rw [getD_setD]
  by_cases h : set = k
  · simp [h]
  · simp [h, beq_false_of_ne (Ne.symm h)]

/-- A spill count after the live state of a slot has changed (R20). -/
theorem getD_adjustSpill (n : Nat) (before after : Option CaseRecord) (spill : SMap Nat) (set : Nat) :
    SMap.getD (adjustSpill n before after spill) 0 set =
      if n < spillBase then SMap.getD spill 0 set
      else
        SMap.getD spill 0 set - (before.any (fun c => homeSet c.card == set)).toNat +
          (after.any (fun c => homeSet c.card == set)).toNat := by
  unfold adjustSpill
  split
  · rfl
  · cases before with
    | none => cases after <;> simp [getD_raised]
    | some b =>
      cases after with
      | none => simp [getD_lowered]
      | some a => exact (getD_raised _ _ _).trans (by rw [getD_lowered]; rfl)

theorem wf_adjustSpill (n : Nat) (before after : Option CaseRecord) {spill : SMap Nat} (h : SMap.wf spill 0 512) :
    SMap.wf (adjustSpill n before after spill) 0 512 := by
  unfold adjustSpill
  split
  · exact h
  · cases before with
    | none =>
      cases after with
      | none => exact h
      | some a => exact wf_setD h (homeSet_lt _) _
    | some b =>
      have hdown := wf_setD h (homeSet_lt b.card) (SMap.getD spill 0 (homeSet b.card) - 1)
      cases after with
      | none => exact hdown
      | some a => exact wf_setD hdown (homeSet_lt _) _

/-- A count over distinct places, one of which has changed. -/
theorem countP_changed {p q : Nat → Bool} {n : Nat} {xs : List Nat} (hd : xs.Nodup) (hn : n ∈ xs)
    (h : ∀ m, m ≠ n → q m = p m) : xs.countP q + (p n).toNat = xs.countP p + (q n).toNat := by
  induction xs with
  | nil => cases hn
  | cons x rest ih =>
    obtain ⟨hx, hrest⟩ := List.nodup_cons.mp hd
    simp only [List.countP_cons]
    rcases List.mem_cons.mp hn with rfl | hmem
    · have hsame : rest.countP q = rest.countP p :=
        List.countP_congr fun m hm => by rw [h m (fun he => hx (he ▸ hm))]
      rw [hsame]
      cases p n <;> cases q n <;> simp
    · have hne : x ≠ n := fun he => hx (he ▸ hmem)
      rw [h x hne]
      have := ih hrest hmem
      omega

theorem nodup_spillList : spillList.Nodup := List.nodup_range'

/-! ### The Case Table -/

/-- The spill counts of a sound Case Table follow a slot whose live state changes (R20). -/
theorem spill_follows {s : State} {n : Nat} {after : Option CaseRecord} {set : Nat} (hn : n < slotLimit)
    (h : s.spillAt set = spillList.countP (fun m => (s.caseAt m).any (fun c => homeSet c.card == set))) :
    SMap.getD (adjustSpill n (s.caseAt n) after s.spill) 0 set =
      spillList.countP
        (fun m => (if m = n then after else s.caseAt m).any (fun c => homeSet c.card == set)) := by
  rw [getD_adjustSpill]
  change (if n < spillBase then s.spillAt set else s.spillAt set - _ + _) = _
  split
  next hset =>
    rw [h]
    refine List.countP_congr fun m hm => ?_
    have hne : m ≠ n := fun he => Nat.not_le_of_lt hset (he ▸ (mem_spillList.mp hm).1)
    rw [if_neg hne]
  next hspill =>
    have hmem : n ∈ spillList := mem_spillList.mpr ⟨Nat.le_of_not_lt hspill, hn⟩
    have hcount := countP_changed nodup_spillList hmem
      (p := fun m => (s.caseAt m).any (fun c => homeSet c.card == set))
      (q := fun m => (if m = n then after else s.caseAt m).any (fun c => homeSet c.card == set))
      (fun m hm => by simp only [if_neg hm])
    simp only [if_true] at hcount
    have hpos : ((s.caseAt n).any (fun c => homeSet c.card == set)).toNat ≤
        spillList.countP (fun m => (s.caseAt m).any (fun c => homeSet c.card == set)) := by
      cases hb : (s.caseAt n).any (fun c => homeSet c.card == set) with
      | false => exact Nat.zero_le _
      | true => exact List.countP_pos_iff.mpr ⟨n, hmem, hb⟩
    omega

theorem caseTableSound_of_write {s : State} {n : Nat} {c d : CaseRecord} (h : s.caseTableSound)
    (hc : s.caseAt n = some c) (hd : d.card = c.card) : (s.setCase n d).caseTableSound := by
  obtain ⟨hsorted, hplace, honce, hspill⟩ := h
  have hold {m : Nat} {e : CaseRecord} (he : (s.setCase n d).caseAt m = some e) :
      ∃ f, s.caseAt m = some f ∧ f.card = e.card := by
    rw [caseAt_setCase] at he
    split at he
    next hm =>
      obtain rfl := Option.some.inj he
      exact ⟨c, hm ▸ hc, hd.symm⟩
    next => exact ⟨e, he, rfl⟩
  refine ⟨sorted_setD hsorted _ _ _, fun m e he => ?_, fun m k e f he hf hcard => ?_, fun set => ?_⟩
  · obtain ⟨g, hg, hcard⟩ := hold he
    rw [← hcard]
    exact hplace m g hg
  · obtain ⟨g, hg, hge⟩ := hold he
    obtain ⟨i, hi, hif⟩ := hold hf
    exact honce m k g i hg hi (hge.trans (hcard.trans hif.symm))
  · refine (hspill set).trans (List.countP_congr fun m _ => ?_)
    rw [caseAt_setCase]
    split
    next hm => simp [hm, hc, hd]
    next => rfl

theorem caseTableSound_of_fill {s : State} {n : Nat} {c : CaseRecord} (h : s.caseTableSound)
    (hl : lookup c.card s = none) (ha : allocate c.card s = some n) :
    (s.fillSlot n { s.slotAt n with case := some c }).caseTableSound := by
  obtain ⟨-, hlimit, hset⟩ := allocate_free ha
  have hnew {m : Nat} {e : CaseRecord} (he : s.caseAt m = some e) : e.card ≠ c.card := card_ne_of_lookup h hl he
  obtain ⟨hsorted, hplace, honce, hspill⟩ := h
  refine ⟨sorted_setD hsorted _ _ _, fun m e he => ?_, fun m k e f he hf hcard => ?_, fun set => ?_⟩
  · rw [caseAt_fillSlot] at he
    split at he
    next hm =>
      obtain rfl := Option.some.inj he
      exact hm ▸ ⟨hlimit, hset⟩
    next => exact hplace m e he
  · rw [caseAt_fillSlot] at he hf
    split at he <;> split at hf
    next hm hk => rw [hm, hk]
    next =>
      obtain rfl := Option.some.inj he
      exact absurd hcard.symm (hnew hf)
    next =>
      obtain rfl := Option.some.inj hf
      exact absurd hcard (hnew he)
    next => exact honce m k e f he hf hcard
  · refine (spill_follows (after := some c) hlimit (hspill set)).trans (List.countP_congr fun m _ => ?_)
    rw [caseAt_fillSlot]

theorem caseTableSound_of_free {s : State} {n : Nat} {c : CaseRecord} (u : Byte) (h : s.caseTableSound)
    (hc : s.caseAt n = some c) : (s.fillSlot n ⟨u, none⟩).caseTableSound := by
  obtain ⟨hsorted, hplace, honce, hspill⟩ := h
  have hold {m : Nat} {e : CaseRecord} (he : (s.fillSlot n ⟨u, none⟩).caseAt m = some e) : s.caseAt m = some e := by
    rw [caseAt_fillSlot] at he
    split at he
    · cases he
    · exact he
  refine ⟨sorted_setD hsorted _ _ _, fun m e he => hplace m e (hold he),
    fun m k e f he hf => honce m k e f (hold he) (hold hf), fun set => ?_⟩
  refine (spill_follows (after := none) (hplace n c hc).1 (hspill set)).trans (List.countP_congr fun m _ => ?_)
  rw [caseAt_fillSlot]

/-! ### Removal versions dropped, one case after another -/

theorem removals_cases {s : State} (hs : SMap.sorted s.slots) {p : Nat × CaseRecord} (hp : p ∈ s.removals) :
    s.caseAt p.1 = some p.2 := by
  simp only [State.removals, List.mem_filterMap, Option.bind_eq_some_iff] at hp
  obtain ⟨e, he, c, hc, hsome⟩ := hp
  split at hsome
  next =>
    obtain rfl := Option.some.inj hsome
    simp only [State.caseAt, State.slotAt, SMap.getD, look_of_mem hs he, Option.getD_some, hc]
  next => cases hsome

theorem removals_keys {s : State} (hs : SMap.sorted s.slots) : s.removals.Pairwise (fun a b => a.1 ≠ b.1) := by
  refine List.Pairwise.filterMap _ (fun a b hab p hp q hq => ?_) hs
  simp only [Option.bind_eq_some_iff] at hp hq
  obtain ⟨c, -, hc⟩ := hp
  obtain ⟨d, -, hd⟩ := hq
  split at hc
  next =>
    split at hd
    next =>
      obtain rfl := Option.some.inj hc
      obtain rfl := Option.some.inj hd
      exact hab.ne
    next => cases hd
  next => cases hc

/-- What holds and is kept by a write of a case over one of the same card holds once the removal versions have been
dropped (R94). -/
theorem dropRemovals_keeps {P : State → Prop}
    (write : ∀ (s : State) (n : Nat) (c d : CaseRecord),
      P s → s.caseAt n = some c → d.card = c.card → P (s.setCase n d))
    {s : State} (hs : SMap.sorted s.slots) (h : P s) : P (dropRemovals s.removals s) := by
  suffices hgo : ∀ (xs : List (Nat × CaseRecord)) (s : State), xs.Pairwise (fun a b => a.1 ≠ b.1) →
      (∀ p ∈ xs, s.caseAt p.1 = some p.2) → P s → P (dropRemovals xs s) from
    hgo _ s (removals_keys hs) (fun p hp => removals_cases hs hp) h
  intro xs
  induction xs with
  | nil => exact fun _ _ _ h => h
  | cons x rest ih =>
    intro s hkeys hcases h
    obtain ⟨hx, hrest⟩ := List.pairwise_cons.mp hkeys
    refine ih _ hrest (fun p hp => ?_) (write s x.1 x.2 _ h (hcases x List.mem_cons_self) rfl)
    rw [caseAt_setCase, if_neg (hx p hp).symm]
    exact hcases p (List.mem_cons_of_mem _ hp)

end Sys2Proof.Machine

namespace Sys2Proof.Machine

/-! ### Feeds, H and Vs -/

theorem foldl_min_le (a : Nat) (xs : List Nat) : xs.foldl min a ≤ a ∧ ∀ x ∈ xs, xs.foldl min a ≤ x := by
  induction xs generalizing a with
  | nil => exact ⟨le_refl a, nofun⟩
  | cons y rest ih =>
    obtain ⟨hmin, hrest⟩ := ih (min a y)
    refine ⟨hmin.trans (Nat.min_le_left _ _), fun x hx => ?_⟩
    rcases List.mem_cons.mp hx with rfl | hx
    · exact hmin.trans (Nat.min_le_right _ _)
    · exact hrest x hx

theorem foldl_min_mem (a : Nat) (xs : List Nat) : xs.foldl min a = a ∨ xs.foldl min a ∈ xs := by
  induction xs generalizing a with
  | nil => exact .inl rfl
  | cons y rest ih =>
    rcases ih (min a y) with h | h
    · rcases Nat.le_total a y with hle | hle
      · exact .inl (h.trans (Nat.min_eq_left hle))
      · exact .inr (List.mem_cons.mpr (.inl (h.trans (Nat.min_eq_right hle))))
    · exact .inr (List.mem_cons_of_mem _ h)

theorem leastOr_le (d : Nat) {xs : List Nat} {x : Nat} (h : x ∈ xs) : leastOr d xs ≤ x := by
  cases xs with
  | nil => cases h
  | cons a rest =>
    rcases List.mem_cons.mp h with rfl | h
    · exact (foldl_min_le _ _).1
    · exact (foldl_min_le _ _).2 x h

theorem leastOr_mem (d : Nat) {xs : List Nat} (h : xs ≠ []) : leastOr d xs ∈ xs := by
  cases xs with
  | nil => exact absurd rfl h
  | cons a rest =>
    rcases foldl_min_mem a rest with h | h
    · exact List.mem_cons.mpr (.inl h)
    · exact List.mem_cons_of_mem _ h

/-- What stands below every one of some numbers, and below the value taken when there are none, stands below the least
of them. -/
theorem le_leastOr {d b : Nat} {xs : List Nat} (hd : b ≤ d) (h : ∀ x ∈ xs, b ≤ x) : b ≤ leastOr d xs := by
  cases hxs : xs with
  | nil => exact hd
  | cons a rest => exact hxs ▸ h _ (leastOr_mem d (hxs ▸ List.cons_ne_nil _ _))

theorem mem_activeFeeds {s : State} {f : Feed} : f ∈ s.activeFeeds ↔ f.active = true ∧ ∃ e ∈ s.feeds, e.2 = f := by
  simp only [State.activeFeeds, List.mem_filter, List.mem_map]
  exact And.comm

/-- The recomputed H and Vs stand at or below the values of every ACTIVE feed (R71). -/
theorem minima_le {s : State} {e : Nat × Feed} (he : e ∈ s.feeds) (ha : e.2.active = true) :
    s.minima.h ≤ e.2.sweep ∧ s.minima.vs ≤ e.2.cleared := by
  have hm : e.2 ∈ s.activeFeeds := mem_activeFeeds.mpr ⟨ha, e, he, rfl⟩
  exact ⟨leastOr_le _ (List.mem_map_of_mem hm), leastOr_le _ (List.mem_map_of_mem hm)⟩

/-- Where every ACTIVE feed stands at or above H and Vs, a recomputation lowers neither (R71). -/
theorem le_minima {s : State} (h : s.horizonSound) : s.horizon.h ≤ s.minima.h ∧ s.horizon.vs ≤ s.minima.vs := by
  constructor <;> refine le_leastOr (le_refl _) fun x hx => ?_ <;>
    obtain ⟨f, hf, rfl⟩ := List.mem_map.mp hx <;> obtain ⟨ha, e, he, rfl⟩ := mem_activeFeeds.mp hf
  · exact (h e he ha).1
  · exact (h e he ha).2

/-- H and Vs have not fallen, and stand at or below the values of every ACTIVE feed, where they did so before. -/
def Raises (s t : State) : Prop :=
  s.horizonSound → t.horizonSound ∧ s.horizon.h ≤ t.horizon.h ∧ s.horizon.vs ≤ t.horizon.vs

theorem raises_of_same {s t : State} (hf : t.feeds = s.feeds) (hh : t.horizon = s.horizon) : Raises s t := by
  intro h
  simp only [State.horizonSound, hf, hh, le_refl, and_self, and_true]
  exact h

theorem raises_setFeed {s : State} {n : Nat} {x : Feed} (hx : (s.feedAt n).Follows s.horizon x) :
    Raises s (s.setFeed n x) := by
  refine fun h => ⟨fun e he ha => ?_, le_refl _, le_refl _⟩
  rcases mem_setD he with rfl | he
  · rcases hx ha with ⟨hactive, hsweep, hcleared⟩ | hvalues
    · rcases mem_or_default s.feeds {} n with hm | hd
      · obtain ⟨h1, h2⟩ := h _ hm hactive
        exact ⟨h1.trans hsweep, h2.trans hcleared⟩
      · have hnone : (s.feedAt n).active = false := congrArg Feed.active hd
        cases hnone.symm.trans hactive
    · exact hvalues
  · exact h e he ha

theorem raises_setMinima (s : State) : Raises s (s.setHorizon s.minima) :=
  fun h => ⟨fun _ he ha => minima_le he ha, le_minima h⟩

theorem dropRemovals_tables (xs : List (Nat × CaseRecord)) (s : State) :
    { (dropRemovals xs s).ledger with slots := s.slots } = s.ledger := by
  rw [(noted_dropRemovals (noted_refl s) xs).1]
  rfl

theorem load_tables (rs : List RawProduct) (x : Session) (s : State) :
    { (writeEntries rs x s).2.ledger with products := s.products } = s.ledger := by
  rw [(noted_writeEntries (noted_refl s) rs x).1]
  rfl

theorem Move.raises {s t : State} (m : Move s t) : Raises s t := by
  cases m with
  | other h _ => exact raises_of_same (congrArg Ledger.feeds h) (congrArg Ledger.horizon h)
  | write _ _ => exact raises_of_same rfl rfl
  | fill _ _ => exact raises_of_same rfl rfl
  | free _ _ => exact raises_of_same rfl rfl
  | removals =>
    have h := dropRemovals_tables s.removals s
    exact raises_of_same (congrArg Ledger.feeds h) (congrArg Ledger.horizon h)
  | feed _ hx => exact raises_setFeed hx
  | minima => exact raises_setMinima s
  | @load x _ rs =>
    have h := load_tables rs x s
    exact raises_of_same (congrArg Ledger.feeds h) (congrArg Ledger.horizon h)
  | policy _ => exact raises_of_same rfl rfl

theorem Moves.raises {s t : State} (m : Moves s t) : Raises s t := by
  induction m with
  | refl => exact raises_of_same rfl rfl
  | step _ hm ih =>
    intro h
    obtain ⟨h1, h2, h3⟩ := ih h
    obtain ⟨k1, k2, k3⟩ := hm.raises h1
    exact ⟨k1, h2.trans k2, h3.trans k3⟩

/-! ### The Case Table under moves -/

theorem caseTableSound_congr {s t : State} (hs : t.slots = s.slots) (hp : t.spill = s.spill) (h : s.caseTableSound) :
    t.caseTableSound := by
  have hc : t.caseAt = s.caseAt := by
    funext n
    simp only [State.caseAt, State.slotAt, hs]
  simpa only [State.caseTableSound, State.spillAt, hs, hp, hc] using h

theorem Move.caseTable {s t : State} (m : Move s t) (h : s.caseTableSound) : t.caseTableSound := by
  cases m with
  | other hl _ => exact caseTableSound_congr (congrArg Ledger.slots hl) (congrArg Ledger.spill hl) h
  | write hc hd => exact caseTableSound_of_write h hc hd
  | fill hl ha => exact caseTableSound_of_fill h hl ha
  | free u hc => exact caseTableSound_of_free u h hc
  | removals => exact dropRemovals_keeps (fun _ _ _ _ h hc hd => caseTableSound_of_write h hc hd) h.1 h
  | feed _ _ => exact caseTableSound_congr rfl rfl h
  | minima => exact caseTableSound_congr rfl rfl h
  | @load x _ rs =>
    have hl := load_tables rs x s
    exact caseTableSound_congr (congrArg Ledger.slots hl) (congrArg Ledger.spill hl) h
  | policy _ => exact caseTableSound_congr rfl rfl h

theorem Moves.caseTable {s t : State} (m : Moves s t) (h : s.caseTableSound) : t.caseTableSound := by
  induction m with
  | refl => exact h
  | step _ hm ih => exact hm.caseTable ih

/-! ### The tables' forms -/

theorem setting_between {lo hi held : Nat} (h : lo ≤ hi) (hheld : lo ≤ held ∧ held ≤ hi) (v : Option Nat) :
    lo ≤ setting lo hi held v ∧ setting lo hi held v ≤ hi := by
  cases v with
  | none => exact hheld
  | some v =>
    simp only [setting, clampInto]
    omega

/-- A SET POLICY leaves every setting in its range (R101, R102). -/
theorem policyWith_inRange (q : PolicyParams) {p : Policy} (h : p.inRange = true) : (policyWith q p).inRange = true := by
  simp only [Policy.inRange, Bool.and_eq_true, decide_eq_true_eq] at h ⊢
  obtain ⟨⟨⟨⟨⟨⟨⟨h1, h2⟩, h3⟩, h4⟩, h5⟩, h6⟩, h7⟩, h8⟩ := h
  exact ⟨⟨⟨⟨⟨⟨⟨setting_between (by decide) h1 _, (setting_between (by decide) ⟨Nat.zero_le _, h2⟩ _).2⟩,
    (setting_between (by decide) ⟨Nat.zero_le _, h3⟩ _).2⟩, setting_between (by decide) h4 _⟩,
    (setting_between (by decide) ⟨Nat.zero_le _, h5⟩ _).2⟩, setting_between (by decide) h6 _⟩,
    (setting_between (by decide) ⟨Nat.zero_le _, h7⟩ _).2⟩, (setting_between (by decide) ⟨Nat.zero_le _, h8⟩ _).2⟩

/-- The tables read by the invariants are in their canonical forms, the Policy Set in its ranges. -/
structure Ledger.Formed (x : Ledger) : Prop where
  slots : SMap.wf x.slots {} slotLimit
  feeds : SMap.wf x.feeds {} 64
  products : SMap.wf x.products {} 256
  spill : SMap.wf x.spill 0 512
  policy : x.policy.inRange = true

theorem formed_of_write {s : State} {n : Nat} {c : CaseRecord} (h : s.ledger.Formed) (hc : s.caseAt n = some c)
    (d : CaseRecord) : (s.setCase n d).ledger.Formed :=
  { h with slots := wf_setD h.slots (h.slots.2 _ (mem_of_caseAt hc)).1 _ }

theorem formed_of_fill {s : State} {n : Nat} (h : s.ledger.Formed) (hn : n < slotLimit) (x : Slot) :
    (s.fillSlot n x).ledger.Formed :=
  { h with slots := wf_setD h.slots hn x, spill := wf_adjustSpill _ _ _ h.spill }

theorem Move.formed {s t : State} (m : Move s t) (hs : s.sessionSound) (h : s.ledger.Formed) : t.ledger.Formed := by
  cases m with
  | other hl _ => exact hl ▸ h
  | write hc _ => exact formed_of_write h hc _
  | fill _ ha => exact formed_of_fill h (allocate_free ha).2.1 _
  | free u hc => exact formed_of_fill h (h.slots.2 _ (mem_of_caseAt hc)).1 _
  | removals =>
    exact dropRemovals_keeps (P := fun s => s.ledger.Formed) (fun _ _ _ _ h hc _ => formed_of_write h hc _) h.slots.1 h
  | feed hn _ => exact { h with feeds := wf_setD h.feeds hn _ }
  | minima => exact { h with }
  | @load x hx rs =>
    have hl := load_tables rs x s
    have hw := wf_writeEntries rs (x := x) (s := s) h.products (hs x hx)
    rw [← hl] at h
    exact { h with products := hw }
  | policy q => exact { h with policy := policyWith_inRange q h.policy }

theorem Moves.formed {s t : State} (m : Moves s t) (hs : s.sessionSound) (h : s.ledger.Formed) : t.ledger.Formed := by
  induction m with
  | refl => exact h
  | step hm hlast ih => exact hlast.formed ((Moves.beside hm).session hs) ih

end Sys2Proof.Machine

namespace Sys2Proof.Machine

/-! ### Operations on the tables are runs of moves -/

theorem Moves.quiet {s t u : State} (m : Moves s t) (q : Quiet t u) : Moves s u := m.trans q.moves

theorem moves_of_ite {p : Prop} [Decidable p] {s a b : State} (ha : p → Moves s a) (hb : ¬p → Moves s b) :
    Moves s (if p then a else b) := by
  split
  next h => exact ha h
  next h => exact hb h

/-- A step that changes none of the tables the invariants read, but for noted writes. -/
theorem moves_of_noted {s e t : State} (n : Noted e t) (hl : e.ledger = s.ledger)
    (hb : Beside s e) : Moves s t := by
  refine moves_single (.other ?_ (hb.noted n))
  rw [n.1]
  exact hl

theorem moves_doListOp (s : State) (op : ListOp) : Moves s (s.doListOp op) :=
  moves_of_noted (noted_doListOp (noted_refl s) op) rfl (beside_of_same rfl rfl rfl)

theorem moves_doEmitOp (s : State) (op : EmitOp) : Moves s (s.doEmitOp op) :=
  moves_of_noted (noted_doEmitOp (noted_refl s) op) rfl (beside_of_same rfl rfl rfl)

theorem moves_setClock (s : State) (c : Clock) : Moves s (s.setClock c) :=
  moves_of_noted (noted_setClock (noted_refl s) c) rfl (beside_of_same rfl rfl rfl)

theorem moves_setInjector (s : State) (i : Injector) : Moves s (s.setInjector i) :=
  moves_of_noted (noted_setInjector (noted_refl s) i) rfl (beside_of_same rfl rfl rfl)

theorem moves_removeEmission (h : Handle) (k : EmitKind) (s : State) : Moves s (removeEmission h k s) :=
  moves_of_noted (noted_removeEmission (noted_refl s) h k) rfl (beside_of_same rfl rfl rfl)

theorem moves_placeOffer (h : Handle) (s : State) : Moves s (placeOffer h s) :=
  moves_of_noted (noted_placeOffer (noted_refl s) h) rfl (beside_of_same rfl rfl rfl)

theorem moves_setCase {s : State} {n : Nat} {c : CaseRecord} (hc : s.caseAt n = some c) (d : CaseRecord)
    (hd : d.card = c.card) : Moves s (s.setCase n d) := moves_single (.write hc hd)

theorem moves_freeSlot {s : State} {n : Nat} {c : CaseRecord} (hc : s.caseAt n = some c) : Moves s (freeSlot n s) :=
  ((moves_single (.free _ hc)).trans (moves_removeEmission _ _ _)).trans (moves_removeEmission _ _ _)

theorem caseAt_of_named {s : State} {h : Handle} {c : CaseRecord} (hn : s.named h = some c) :
    s.caseAt h.slot = some c := by
  unfold State.named at hn
  split at hn
  · exact hn
  · cases hn

/-! ### Cases -/

theorem anchored_card (entry : Nat → Product) (p : Policy) (c : CaseRecord) : (anchored entry p c).card = c.card := by
  simp only [anchored]
  split <;> rfl

theorem finalized_card (vs : Nat) (c : CaseRecord) : (finalized vs c).card = c.card := by
  unfold finalized
  split
  · split <;> rfl
  · rfl

theorem moves_anchorCase {s : State} {n : Nat} {x c : CaseRecord} (hx : s.caseAt n = some x) (hc : c.card = x.card) :
    Moves s (anchorCase n c s) := by
  have hset := moves_setCase hx (anchored s.productAt s.policy c) ((anchored_card _ _ _).trans hc)
  refine moves_of_ite (fun _ => hset.quiet (quiet_countNotice _ _ _)) fun _ => hset.trans (moves_placeOffer _ _)

theorem moves_settleCase {s : State} {n : Nat} {x c : CaseRecord} (hx : s.caseAt n = some x) (hc : c.card = x.card) :
    Moves s (settleCase n c s) := by
  refine Moves.quiet (Moves.trans ?_ (moves_doEmitOp _ _)) (quiet_countNotice _ _ _)
  exact moves_setCase hx _ hc

theorem moves_stallCase {s : State} {n : Nat} {x c : CaseRecord} (source : StalledFrom) (hx : s.caseAt n = some x)
    (hc : c.card = x.card) : Moves s (stallCase source n c s) := by
  refine Moves.quiet ?_ (quiet_countNotice _ _ _)
  exact moves_setCase hx _ hc

theorem moves_keepCase {s : State} {n : Nat} {x c : CaseRecord} (hx : s.caseAt n = some x) (hc : c.card = x.card) :
    Moves s (keepCase n x c s) := moves_of_ite (fun _ => .refl) fun _ => moves_setCase hx _ hc

theorem moves_visitCase {s : State} {n : Nat} {c : CaseRecord} (hc : s.caseAt n = some c) :
    Moves s (visitCase n c s) := by
  have hf : (finalized s.horizon.vs c).card = c.card := finalized_card _ _
  have hkeep := moves_keepCase hc hf
  have hanchor := moves_anchorCase hc hf
  have hsettle := moves_settleCase hc hf
  have hstall (source : StalledFrom) := moves_stallCase source hc hf
  unfold visitCase
  dsimp only
  split
  · exact .refl
  · exact .refl
  · exact moves_of_ite (fun _ => moves_freeSlot hc) fun _ => .refl
  · exact hkeep
  · exact hkeep
  · exact moves_of_ite (fun _ => hanchor) fun _ => moves_of_ite (fun _ => hstall _) fun _ => hkeep
  · exact moves_of_ite (fun _ => hanchor) fun _ => hkeep
  · exact moves_of_ite (fun _ => hsettle) fun _ => moves_of_ite (fun _ => hstall _) fun _ => hkeep
  · exact moves_of_ite (fun _ => hsettle) fun _ => hkeep

theorem moves_visitSlot (n : Nat) (s : State) : Moves s (visitSlot n s) := by
  unfold visitSlot
  split
  next hc => exact moves_visitCase hc
  next => exact .refl

/-! ### Feeds -/

theorem follows_clearRing (z : Horizon) {f x : Feed} (h : f.Follows z x) : f.Follows z x.clearRing := by
  unfold Feed.clearRing
  split
  · exact h
  · intro ha
    obtain ⟨h1, h2, h3⟩ | ⟨h1, h2⟩ := h ha
    · exact .inl ⟨h1, h2, h3.trans (Nat.le_max_left _ _)⟩
    · exact .inr ⟨h1, h2.trans (Nat.le_max_left _ _)⟩

/-- A feed whose state and values stay follows itself. -/
theorem follows_same (z : Horizon) {f x : Feed} (active : x.active = f.active) (sweep : f.sweep ≤ x.sweep)
    (cleared : x.cleared = f.cleared) :
    f.Follows z x :=
  fun ha => .inl ⟨active ▸ ha, sweep, cleared ▸ Nat.le_refl _⟩

theorem moves_setFeed {s : State} {n : Nat} {x : Feed} (hn : n < 64) (hx : (s.feedAt n).Follows s.horizon x) :
    Moves s (s.setFeed n x) := moves_single (.feed hn hx)

theorem moves_recompute (s : State) : Moves s (recompute s) :=
  (moves_single .minima).quiet (quiet_triggerIf _ _)

theorem moves_countUnadmitted {n : Nat} (hn : n < 64) (s : State) : Moves s (countUnadmitted n s) :=
  (moves_setFeed hn (follows_same _ (by rfl) (by rfl) (by rfl))).quiet (quiet_countNotice _ _ _)

theorem moves_ignoreAck {n : Nat} (hn : n < 64) (s : State) : Moves s (ignoreAck n s) :=
  (moves_setFeed hn (follows_same _ (by rfl) (by rfl) (by rfl))).quiet (quiet_countNotice _ _ _)

theorem moves_sweepEffect (n t : Nat) (s : State) : Moves s (sweepEffect n t s) := by
  refine moves_of_ite (fun _ => .refl) fun hn => ?_
  have hn : n < 64 := by omega
  refine moves_of_ite (fun _ => moves_countUnadmitted hn s) fun _ => moves_of_ite (fun _ => ?_) fun hlt => ?_
  · exact (moves_setFeed hn (follows_same _ (by rfl) (by rfl) (by rfl))).quiet (quiet_countNotice _ _ _)
  · refine (moves_setFeed hn (follows_clearRing _ (follows_same _ (by rfl) ?_ (by rfl)))).trans (moves_recompute _)
    exact Nat.le_of_lt (Nat.lt_of_not_le hlt)

theorem moves_listackEffect (a : Listack) (s : State) : Moves s (listackEffect a s) := by
  refine moves_of_ite (fun _ => .refl) fun hn => ?_
  have hn : a.feed < 64 := by omega
  have henter : (s.feedAt a.feed).Follows s.horizon
      ((s.feedAt a.feed).enter ⟨min a.version s.injector.counter, a.time⟩) :=
    follows_same _ rfl (Nat.le_refl _) rfl
  refine moves_of_ite (fun _ => moves_countUnadmitted hn s) fun _ => moves_of_ite (fun _ => moves_ignoreAck hn s) fun _ =>
    moves_of_ite (fun _ => moves_ignoreAck hn s) fun _ => moves_of_ite (fun _ => ?_) fun _ => ?_
  · exact (moves_setFeed hn (follows_clearRing _ henter)).trans (moves_recompute _)
  · exact moves_setFeed hn henter

/-! ### Attribution -/

theorem anchorRule_card (r : CardRecord) (c : CaseRecord) : (anchorRule r c).card = c.card := by
  unfold anchorRule
  repeat' split
  all_goals rfl

theorem measured_card (owned : BitVec 5) (inj : Injector) (f : Feed) (r : CardRecord) (c : CaseRecord) :
    (measured owned inj f r c).case.card = c.card := by
  have hplaced (w : Window) (i : Nat) : (attributePlaced owned (blockedBy inj f r c) w i r c).case.card = c.card := by
    simp only [attributePlaced]
    split
    · exact anchorRule_card _ _
    · rfl
  simp only [measured]
  repeat' split
  · rfl
  · exact hplaced _ _
  · exact hplaced _ _
  · simp only [attributeBehind]
    split
    · exact anchorRule_card _ _
    · rfl

theorem feed_lt_of_valid {f : Frame} {r : CardRecord} (h : (CardRecord.ofFrame f).filter (·.valid) = some r) :
    r.feed < 64 := by
  have hv : r.valid = true := (Option.filter_eq_some_iff.mp h).2
  simp only [CardRecord.valid, Bool.and_eq_true, decide_eq_true_eq] at hv
  omega

theorem moves_feedCheck {r : CardRecord} (hr : r.feed < 64) (s : State) : Moves s (feedCheck r s) := by
  refine moves_of_ite (fun _ => moves_countUnadmitted hr s) fun _ => moves_of_ite (fun _ => ?_) fun _ => .refl
  exact (moves_setFeed hr (follows_same _ (by rfl) (by rfl) (by rfl))).quiet (quiet_countNotice _ _ _)

theorem moves_applyAttributed {s : State} {n : Nat} {c : CaseRecord} {a : Attributed} (hc : s.caseAt n = some c)
    (ha : a.case.card = c.card) : Moves s (applyAttributed n c a s) := by
  have hset := ((moves_setCase hc a.case ha).quiet (quiet_countIf a.lateRecord .lateRecord (.handle (s.handleAt n)) _)).quiet
    (quiet_countIf a.blockedUse .blockedUse (.handle (s.handleAt n)) _)
  refine moves_of_ite (fun _ => ?_) fun _ => hset
  exact (hset.trans (moves_removeEmission _ _ _)).quiet (quiet_countNotice _ _ _)

theorem moves_attributeFrame (f : Frame) (s : State) : Moves s (attributeFrame f s).1 := by
  unfold attributeFrame
  split
  · exact .refl
  next r hr =>
    have hcheck := moves_feedCheck (feed_lt_of_valid hr) s
    dsimp only
    split
    · split
      next c hc => exact hcheck.trans (moves_applyAttributed hc (measured_card _ _ _ _ _))
      next => exact hcheck
    · exact hcheck

theorem moves_bypassFrame (f : Frame) (s : State) : Moves s (bypassFrame f s) := by
  refine moves_of_ite (fun _ => .refl) fun _ => ?_
  split
  · split
    next c hc => exact moves_setCase hc _ rfl
    next => exact .refl
  · exact .refl

/-! ### The List Injector -/

theorem moves_setRemoval (h : Handle) (v : Option Nat) (s : State) : Moves s (setRemoval h v s) := by
  unfold setRemoval
  split
  next c hn => exact moves_setCase (caseAt_of_named hn) _ rfl
  next => exact .refl

theorem moves_beginDelta (d : Delta) (s : State) : Moves s (beginDelta d s) := by
  unfold beginDelta
  split
  · exact .refl
  · exact moves_setRemoval _ _ s

theorem moves_cutStationDelta (s : State) : Moves s (cutStationDelta s) := by
  unfold cutStationDelta
  split
  · unfold cutDelta
    split
    · exact moves_setRemoval _ _ s
    · split
      · exact moves_of_ite (fun _ => moves_doListOp s _) fun _ => .refl
      · exact .refl
  · exact .refl

theorem named_congr {s t : State} (h : t.slots = s.slots) (x : Handle) : t.named x = s.named x := by
  unfold State.named State.caseAt State.slotAt
  rw [h]

/-- A port that ends an inserted record sends no delta. -/
theorem quiet_stationDone (s : State) : Quiet s { s with station := s.station.insertedDone } :=
  quiet_of_same rfl

theorem moves_injectVersion (d : Delta) (s : State) : Moves s (injectVersion d s) := moves_setInjector s _

theorem moves_listCase {s : State} {n v : Nat} {c : CaseRecord} (hc : s.caseAt n = some c) :
    Moves s (listCase n v c s) := moves_of_ite (fun _ => moves_anchorCase hc rfl) fun _ => moves_setCase hc _ rfl

theorem moves_addToCase (d : Delta) (cancelled : Bool) (s : State) : Moves s (addToCase d cancelled s) := by
  unfold addToCase
  split
  next c hn =>
    have hc := caseAt_of_named hn
    exact moves_of_ite (fun _ => (moves_setCase hc _ (by rfl)).trans (moves_doListOp _ _)) fun _ => moves_listCase hc
  next => exact .refl

theorem moves_injectAdd (d : Delta) (s : State) : Moves s (injectAdd d s) := by
  have h1 := (quiet_stationDone s).moves.trans (moves_injectVersion d _)
  unfold injectAdd
  dsimp only
  split
  · exact (h1.trans (moves_doListOp _ _)).trans (moves_addToCase _ _ _)
  · exact h1.trans (moves_addToCase _ _ _)

theorem moves_injectRemove (d : Delta) (s : State) : Moves s (injectRemove d s) := by
  have h1 := ((quiet_stationDone s).moves.trans (moves_injectVersion d _)).trans
    (moves_doListOp _ (.remove ⟨d.handle, .remove, false⟩))
  unfold injectRemove
  dsimp only
  split
  next hn => exact h1.trans (moves_freeSlot (caseAt_of_named hn))
  next => exact h1

end Sys2Proof.Machine

namespace Sys2Proof.Machine

/-! ### The commands' own effects are runs of moves -/

/-- A command's own effect is a run of moves. -/
def MovesTables (own : Control → State → Executed) : Prop := ∀ c s, Moves s (own c s).state

theorem moves_withHandle {h : Handle} {act : CaseRecord → Executed} {s : State}
    (hact : ∀ x, s.caseAt h.slot = some x → Moves s (act x).state) : Moves s (withHandle h act s).state := by
  unfold withHandle
  split
  · exact .refl
  · split
    next hn => exact hact _ (caseAt_of_named hn)
    next => exact .refl

theorem moves_openAt {n : Nat} {p : OpenParams} {s : State} (hl : lookup p.card s = none)
    (ha : allocate p.card s = some n) : Moves s (openAt n p s) :=
  (moves_single (.fill (c := newCase p) hl ha)).trans (moves_doListOp _ _)

theorem movesTables_openCase : MovesTables openCase := by
  intro c s
  unfold openCase
  split
  · exact .refl
  · split
    · exact .refl
    · repeat' split
      case h_1 => exact (quiet_countNotice _ _ s).moves
      case h_2 hl _ _ _ ha => exact moves_openAt (by simpa using hl) ha
      all_goals exact .refl

theorem moves_cancelOpening {h : Handle} {x : CaseRecord} {s : State} (hx : s.caseAt h.slot = some x) :
    Moves s (cancelOpening h x s).state := by
  unfold cancelOpening
  split
  · exact (moves_setCase hx _ (by rfl)).trans (moves_doListOp _ _)
  · exact (moves_doListOp s (.withdraw ⟨h, .add, false⟩)).trans (moves_freeSlot hx)

theorem moves_voidListed {h : Handle} {x : CaseRecord} {s : State} (hx : s.caseAt h.slot = some x) :
    Moves s (voidListed h x s) :=
  ((moves_setCase hx { x with phase := .voiding } rfl).trans (moves_doListOp _ _)).trans (moves_removeEmission _ _ _)

theorem movesTables_cancelCase : MovesTables cancelCase := by
  intro c s
  unfold cancelCase
  split
  · exact .refl
  · refine moves_withHandle fun x hx => ?_
    split
    · exact moves_cancelOpening hx
    iterate 4 exact moves_voidListed hx
    all_goals exact .refl

theorem movesTables_acceptCase : MovesTables acceptCase := by
  intro c s
  unfold acceptCase
  split
  · exact .refl
  · refine moves_withHandle fun x hx => ?_
    repeat' split
    case isTrue.isTrue.isFalse => exact (moves_setCase hx (released s x) rfl).trans (moves_placeOffer _ _)
    all_goals exact .refl

theorem movesTables_bindCase : MovesTables bindCase := by
  intro c s
  unfold bindCase
  split
  · exact .refl
  · refine moves_withHandle fun x hx => ?_
    repeat' split
    case isFalse.isFalse.isFalse.isTrue => exact moves_settleCase hx rfl
    case isFalse.isFalse.isFalse.isFalse => exact moves_setCase hx _ rfl
    all_goals exact .refl

theorem movesTables_forceProgress : MovesTables forceProgress := by
  intro c s
  unfold forceProgress
  split
  · exact .refl
  · refine moves_withHandle fun x hx => ?_
    split
    · exact moves_anchorCase hx rfl
    · exact moves_settleCase hx rfl
    · exact .refl

theorem movesTables_closeCase : MovesTables closeCase := by
  intro c s
  unfold closeCase
  split
  · exact .refl
  · refine moves_withHandle fun x hx => ?_
    repeat' split
    case isFalse.isTrue => exact moves_freeSlot hx
    all_goals exact .refl

/-- A command that refuses, or accepts with the state it found, moves nothing. -/
theorem movesTables_of_same {own : Control → State → Executed} (h : ∀ c s, (own c s).state = s) : MovesTables own :=
  fun c s => by
    rw [h]
    exact .refl

theorem movesTables_readCase : MovesTables readCase := by
  refine movesTables_of_same fun c s => ?_
  unfold readCase withHandle
  repeat' split
  all_goals rfl

theorem movesTables_admitFeed : MovesTables admitFeed := by
  intro c s
  unfold admitFeed
  dsimp only
  repeat' split
  case h_2.isFalse.isFalse hn _ =>
    refine (moves_setFeed (by omega) (fun _ => .inr ⟨?_, Nat.le_refl _⟩)).trans
      (moves_recompute _)
    exact Nat.le_max_right _ _
  all_goals exact .refl

theorem movesTables_retireFeed : MovesTables retireFeed := by
  intro c s
  unfold retireFeed
  dsimp only
  repeat' split
  case h_2.isFalse.isFalse hn _ =>
    exact (moves_setFeed (by omega) (fun ha => by cases ha)).trans (moves_recompute _)
  all_goals exact .refl

theorem movesTables_readFeed : MovesTables readFeed := by
  refine movesTables_of_same fun c s => ?_
  unfold readFeed
  repeat' split
  all_goals rfl

theorem movesTables_setPolicy : MovesTables setPolicyCommand := by
  intro c s
  unfold setPolicyCommand
  split
  · exact .refl
  · exact moves_single (.policy _)

theorem movesTables_readPolicy : MovesTables readPolicyCommand := by
  refine movesTables_of_same fun c s => ?_
  unfold readPolicyCommand
  split <;> rfl

/-- The Command Unit takes another load session, whose codes are in the Product Table. -/
theorem quiet_session {s : State} {u : CommandUnit} (h : s.sessionSound → ∀ x ∈ u.session, x.Coded) :
    Quiet s { s with cu := u } :=
  ⟨rfl, id, h, id, id⟩

theorem movesTables_beginLoad : MovesTables beginLoad := by
  intro c s
  unfold beginLoad
  split
  · exact .refl
  · dsimp only
    split
    · exact .refl
    next hrange =>
      refine (quiet_session fun _ x hx => ?_).moves
      obtain rfl := Option.some.inj hx
      exact ⟨by dsimp only; omega, by dsimp only; omega, by dsimp only; omega⟩

theorem movesTables_productData : MovesTables productData := by
  intro c s
  unfold productData
  split
  · exact .refl
  · split
    · exact .refl
    next hx => exact moves_single (.load hx _)

theorem movesTables_readProduct : MovesTables readProduct := by
  refine movesTables_of_same fun c s => ?_
  unfold readProduct
  repeat' split
  all_goals rfl

theorem quiet_writeMasks (ms : List (NoticeClass × Bool)) (s : State) : Quiet s (writeMasks ms s) := by
  induction ms generalizing s with
  | nil => exact quiet_refl s
  | cons m rest ih => exact (quiet_setNotice s m.1 _).trans (ih _)

theorem movesTables_setMask : MovesTables setMask := by
  intro c s
  unfold setMask
  split
  · exact .refl
  · exact (quiet_writeMasks _ s).moves

theorem quiet_clearAll (cs : List NoticeClass) (s : State) : Quiet s (clearAll cs s) := by
  induction cs generalizing s with
  | nil => exact quiet_refl s
  | cons c rest ih => exact (quiet_clearNotice c s).trans (ih _)

theorem movesTables_clearNotices : MovesTables clearNotices := by
  intro c s
  unfold clearNotices
  split
  · exact .refl
  · exact (quiet_clearAll _ s).moves

theorem movesTables_setMode : MovesTables setModeCommand := by
  intro c s
  unfold setModeCommand
  split
  · exact .refl
  · exact Quiet.moves (quiet_of_same rfl)

theorem movesTables_readStatus (x : Option Session) : MovesTables (readStatus x) := by
  refine movesTables_of_same fun c s => ?_
  unfold readStatus
  split <;> rfl

theorem moves_takeBusy (w : BusyWork) (c : Control) (s : State) : Moves s (takeBusy w c s) := by
  unfold takeBusy
  exact Quiet.moves (quiet_cu rfl)

theorem movesTables_exportCases : MovesTables exportCases := by
  intro c s
  unfold exportCases
  dsimp only
  repeat' split
  case h_2.isTrue => exact moves_takeBusy _ c s
  all_goals exact .refl

theorem movesTables_resyncPartner : MovesTables resyncPartner := by
  intro c s
  unfold resyncPartner
  repeat' split
  case h_2.isTrue => exact moves_takeBusy _ c s
  all_goals exact .refl

theorem movesTables_takeover : MovesTables takeover := by
  intro c s
  unfold takeover
  repeat' split
  case h_2.isFalse.isFalse => exact moves_takeBusy _ c s
  all_goals exact .refl

theorem movesTables_forcedTakeover : MovesTables forcedTakeover := by
  intro c s
  unfold forcedTakeover
  split
  · exact .refl
  · exact moves_takeBusy _ c s

/-! ### Resets and changes of role -/

theorem quiet_pointer (x : NoticeClass) (s : State) :
    Quiet s { s with notices := { s.notices with pointer := x } } := quiet_of_same rfl

theorem quiet_resetNotices (s : State) : Quiet s (resetNotices s) :=
  (quiet_clearAll noticeClasses s).trans (quiet_pointer _ _)

/-- The path and the Command Unit emptied (R6, R11, R15, R141). -/
theorem quiet_emptied (cause : ResetCause) (s : State) :
    Quiet s
      { s with
        station := .afterReset, centre := .afterReset, upQueue := [], downQueue := [], insertQueue := []
        upPointer := .emission, deltaCount := 0, mode := .attributing, walk := none, cu := {}, resetCause := cause } := by
  exact ⟨rfl, id, fun _ => nofun, id, id⟩

theorem moves_keepTables (cause : ResetCause) (s : State) : Moves s (keepTables cause s) :=
  ((moves_cutStationDelta s).quiet (quiet_emptied cause _)).quiet (quiet_resetNotices _)

/-- The Mirror Unit's queues emptied, with no claim begun. -/
theorem quiet_afterCommand (s : State) : Quiet s { s with mirror := s.mirror.afterCommand } := by
  refine ⟨rfl, id, id, id, ?_⟩
  rintro ⟨hout, hactive⟩
  refine ⟨hout.trans ?_, fun ha => ?_⟩
  · simp only [MirrorUnit.afterCommand, State.isActive]
    cases s.mirror.stage with
    | waiting cause => cases cause <;> rfl
    | settled | delay | pulsing | claiming => rfl
  · have hstage : s.mirror.stage = .settled := hactive ha
    simp only [MirrorUnit.afterCommand, hstage]
    rfl

theorem moves_commandReset (s : State) : Moves s (commandReset s) :=
  (((quiet_afterCommand s).moves.trans (moves_keepTables .command _)).quiet (quiet_trigger _)).quiet
    (quiet_countIf _ _ _ _)

theorem movesTables_engineReset : MovesTables engineReset := by
  intro c s
  unfold engineReset
  split
  · exact .refl
  · exact moves_commandReset s

/-- The engine is a STANDBY that asserts no Hold, its Mirror Unit's queues emptied (R175). -/
theorem quiet_afterForced (s : State) : Quiet s { s with mirror := s.mirror.afterForced } :=
  ⟨rfl, id, id, fun _ => groupSound_of_empty rfl, fun _ => ⟨rfl, nofun⟩⟩

theorem moves_forcedReset (s : State) : Moves s (forcedReset s) :=
  ((quiet_afterForced s).moves.trans (moves_keepTables .forced _)).quiet (quiet_countIf _ _ _ _)

theorem moves_dropCancelled (s : State) : Moves s (dropCancelled s) := by
  unfold dropCancelled
  split
  · exact moves_of_ite (fun _ => moves_doListOp s _) fun _ => .refl
  · exact .refl

theorem dropCancelled_slots (s : State) : (dropCancelled s).slots = s.slots := by
  unfold dropCancelled
  split
  · split <;> rfl
  · rfl

theorem removals_congr {s t : State} (h : t.slots = s.slots) : t.removals = s.removals := by
  unfold State.removals
  rw [h]

theorem quiet_completeTakeover (s : State) : Quiet s (completeTakeover s) := by
  unfold completeTakeover
  split
  · split
    · exact quiet_formCompletion _ _ _ s
    · exact quiet_formCompletion _ _ _ s
    · exact quiet_refl s
  · exact quiet_refl s

theorem quiet_becomeActive {cause : ClaimCause} {s : State} (h : s.mirror.stage = .claiming cause) :
    Quiet s
      { s with
        mirror := s.mirror.becomeActive cause
        station := s.station.becomeActive
        centre := s.centre.becomeActive
        cu := { s.cu with session := none } } := by
  refine ⟨rfl, id, fun _ => nofun, fun _ => groupSound_of_empty rfl, ?_⟩
  rintro ⟨hout, -⟩
  refine ⟨hout.trans ?_, fun _ => rfl⟩
  rw [h, HoldStage.isClaim, Bool.or_true]
  rfl

theorem moves_roleTaken {cause : ClaimCause} {s : State} (h : s.mirror.stage = .claiming cause) :
    Moves s (becomeActive cause s) := by
  have hrole := (quiet_becomeActive h).moves
  unfold becomeActive
  extract_lets _ s1
  have hdrop := (hrole.trans (moves_dropCancelled s1)).step .removals
  rw [removals_congr (dropCancelled_slots s1)] at hdrop
  exact (((hdrop.quiet (quiet_countNotice _ _ _)).quiet (quiet_trigger _)).quiet (quiet_completeTakeover _)).quiet
    (quiet_flushAnswers _)

theorem quiet_handOver (s : State) : Quiet s (handOver s) := by
  refine Quiet.trans ?_ (quiet_countNotice .roleChange (.line .hold) _)
  exact ⟨rfl, id, fun _ => nofun, fun _ => groupSound_of_empty rfl, fun _ => ⟨rfl, nofun⟩⟩

end Sys2Proof.Machine

namespace Sys2Proof.Machine

/-! ### Every command but a POWER-ON or PIN reset and a mirror write is a run of moves -/

/-- Every state a result leads to is reached by a run of moves. -/
def MovesTo (s : State) (r : Result) : Prop := ∀ t, r = .next t → Moves s t

theorem movesTo_next (s : State) : MovesTo s (.next s) := fun t ht => by
  rw [← Host.Outcome.next.inj ht]
  exact .refl

theorem movesTo_ready {ready : Bool} {effect : State → State} {s : State} (h : ready = true → Moves s (effect s)) :
    MovesTo s (event ready effect s) := fun t ht => by
  rw [← Host.Outcome.next.inj ht]
  exact moves_of_ite (fun hr => (h hr).quiet (quiet_finish _)) fun _ => .refl

theorem movesTo_event {ready : Bool} {effect : State → State} {s : State} (h : Moves s (effect s)) :
    MovesTo s (event ready effect s) := movesTo_ready fun _ => h

theorem movesTo_quiet {ready : Bool} {effect : State → State} {s : State} (h : Quiet s (effect s)) :
    MovesTo s (event ready effect s) := movesTo_event h.moves

/-! #### The line ports -/

theorem quiet_onPort (l : Line) (f : Port → Port) (s : State) : Quiet s (s.onPort l f) := quiet_of_same rfl

theorem quiet_recordArrives (l : Line) (f : Frame) (s : State) : Quiet s (recordArrives l f s) :=
  quiet_of_ite (fun _ => (quiet_onPort l _ s).trans (quiet_countIf _ _ _ _)) fun _ => quiet_onPort l _ s

theorem quiet_creditArrives (l : Line) (body : List Byte) (s : State) : Quiet s (creditArrives l body s) := by
  unfold creditArrives
  split
  · exact quiet_of_ite (fun _ => (quiet_onPort l _ s).trans (quiet_countIf _ _ _ _)) fun _ => quiet_onPort l _ s
  · exact quiet_onPort l _ s

theorem moves_linkDown_tables (l : Line) (s : State) : Moves s (linkDown l s) :=
  (moves_of_ite (fun _ => moves_cutStationDelta s) fun _ => .refl).quiet (quiet_onPort l _ _)

theorem movesTo_recordFrameArrival (l : Line) (bytes : List Byte) (s : State) :
    MovesTo s (execRecordFrameArrival l bytes s) := by
  unfold execRecordFrameArrival
  split
  · exact movesTo_quiet (quiet_recordArrives l _ s)
  · exact movesTo_next s

theorem movesTo_creditFrameArrival (l : Line) (bytes : List Byte) (s : State) :
    MovesTo s (execCreditFrameArrival l bytes s) := by
  unfold execCreditFrameArrival
  split
  · exact movesTo_quiet (quiet_creditArrives l _ s)
  · exact movesTo_next s

theorem movesTo_creditFrameDue (l : Line) (s : State) : MovesTo s (execCreditFrameDue l s) := by
  refine movesTo_event (Quiet.moves ?_)
  exact quiet_onPort l _ s

theorem movesTo_creditFrameSent (l : Line) (s : State) : MovesTo s (execCreditFrameSent l s) := by
  refine movesTo_event (Quiet.moves ?_)
  exact quiet_onPort l _ s

theorem movesTo_silenceTimeout (l : Line) (s : State) : MovesTo s (execSilenceTimeout l s) :=
  movesTo_event ((moves_linkDown_tables l s).quiet (quiet_onPort l _ _))

theorem movesTo_emissionRecordCompletes (s : State) : MovesTo s (execEmissionRecordCompletes s) := by
  unfold execEmissionRecordCompletes
  split
  · refine movesTo_event ?_
    have hdone : Quiet s { s with centre := s.centre.insertedDone } := quiet_of_same rfl
    unfold emissionCompletes
    dsimp only
    split
    · exact moves_of_ite (fun _ => hdone.moves.trans (moves_doEmitOp _ _)) fun _ =>
        hdone.moves.trans (moves_doEmitOp _ _)
    · exact hdone.moves
  · exact movesTo_next s

/-! #### The Record Classifier -/

theorem quiet_takeUp (f : Frame) (s : State) : Quiet s (takeUp f s) := quiet_of_same rfl

theorem quiet_takeDown (f : Frame) (s : State) : Quiet s (takeDown f s) := quiet_of_same rfl

theorem quiet_takeControl (s : State) : Quiet s (takeControl s) := quiet_of_same rfl

theorem moves_adoptTime (t : Nat) (s : State) : Moves s (adoptTime t s) :=
  moves_of_ite (fun _ => (moves_setClock s _).quiet (quiet_triggerIf _ _)) fun _ => (quiet_countIf _ _ _ s).moves

theorem movesTo_attributeRecord (s : State) : MovesTo s (execAttributeRecord s) := by
  unfold execAttributeRecord
  split
  · refine movesTo_event ?_
    split
    · exact (moves_attributeFrame _ s).quiet (quiet_takeUp _ _)
    · exact (moves_bypassFrame _ s).quiet (quiet_takeUp _ _)
  · exact movesTo_next s

theorem movesTo_sweep (s : State) : MovesTo s (execSweep s) := by
  unfold execSweep
  split
  · refine movesTo_event ?_
    split
    · exact (quiet_takeUp _ s).moves.trans (moves_sweepEffect _ _ _)
    · exact (quiet_takeUp _ s).moves
  · exact movesTo_next s

theorem movesTo_listack (s : State) : MovesTo s (execListack s) := by
  unfold execListack
  split
  · refine movesTo_event ?_
    split
    · exact (quiet_takeUp _ s).moves.trans (moves_listackEffect _ _)
    · exact (quiet_takeUp _ s).moves
  · exact movesTo_next s

theorem movesTo_time (s : State) : MovesTo s (execTime s) := by
  unfold execTime
  split
  · refine movesTo_event ?_
    split
    · exact (quiet_takeDown _ s).moves.trans (moves_adoptTime _ _)
    · exact (quiet_takeDown _ s).moves
  · exact movesTo_next s

theorem movesTo_forwardUnchanged (l : Line) (s : State) : MovesTo s (execForwardUnchanged l s) := by
  unfold execForwardUnchanged
  split
  · cases l with
    | station => exact movesTo_quiet (quiet_takeUp _ s)
    | centre => exact movesTo_quiet (quiet_takeDown _ s)
  · exact movesTo_next s

theorem movesTo_controlForPartner (s : State) : MovesTo s (execControlForPartner s) := by
  unfold execControlForPartner
  split
  · exact movesTo_quiet (quiet_takeControl s)
  · exact movesTo_next s

/-! #### Commands -/

theorem quiet_endSession (b : Bool) (s : State) : Quiet s (endSession b s) :=
  quiet_session fun h x hx => h x (by
    cases b
    · exact hx
    · cases hx)

theorem quiet_respond (c : Control) (x : Executed) : Quiet x.state (respond c x) := by
  refine Quiet.trans ?_ (quiet_flushAnswers _)
  exact quiet_cu rfl

theorem movesTo_controlCodeReject (s : State) : MovesTo s (execControlCodeReject s) := by
  have htaken := (quiet_takeControl s).trans (quiet_endSession true _)
  unfold execControlCodeReject
  split
  · split
    · exact movesTo_quiet (htaken.trans (quiet_respond _ (refuse _ _)))
    · exact movesTo_next s
  · exact movesTo_next s

theorem MovesTables.executed {own : Control → State → Executed} (h : MovesTables own) (adm : Admission) (busy : Bool) :
    MovesTables (executed adm busy own) := by
  intro c s
  unfold Machine.executed
  split
  · exact .refl
  · exact h c s

theorem movesTo_runCommand {own : Control → State → Executed} (h : MovesTables own) (code : Byte) (adm : Admission)
    (busy : Bool) (s : State) : MovesTo s (runCommand code adm busy own s) := by
  unfold runCommand
  split
  next c _ =>
    have htaken := (quiet_takeControl s).trans (quiet_endSession (code != codeProductData) _)
    exact movesTo_event ((htaken.moves.trans (h.executed adm busy c _)).quiet (quiet_respond c _))
  next => exact movesTo_next s

/-! #### The transmitters and the Insert Queue -/

theorem movesTo_upwardArbiterChoice (s : State) : MovesTo s (execUpwardArbiterChoice s) := by
  unfold execUpwardArbiterChoice
  split
  · exact movesTo_quiet (quiet_of_same rfl)
  · exact movesTo_next s

theorem movesTo_downwardArbiterChoice (s : State) : MovesTo s (execDownwardArbiterChoice s) := by
  unfold execDownwardArbiterChoice
  split
  · split
    · refine movesTo_event (Moves.trans (Quiet.moves ?_) (moves_beginDelta _ _))
      exact quiet_of_same rfl
    · exact movesTo_next s
  · split
    · exact movesTo_quiet (quiet_of_same rfl)
    · exact movesTo_next s

theorem movesTo_addInjected (s : State) : MovesTo s (execAddInjected s) := by
  unfold execAddInjected
  split
  · exact movesTo_event (moves_injectAdd _ s)
  · exact movesTo_next s

theorem movesTo_removeInjected (s : State) : MovesTo s (execRemoveInjected s) := by
  unfold execRemoveInjected
  split
  · exact movesTo_event (moves_injectRemove _ s)
  · exact movesTo_next s

theorem movesTo_insertedRecordCompletes (s : State) : MovesTo s (execInsertedRecordCompletes s) := by
  refine movesTo_event (Quiet.moves ?_)
  exact quiet_of_same rfl

theorem movesTo_placeRelay (s : State) : MovesTo s (execPlaceRelay s) := by
  unfold execPlaceRelay
  split
  · exact movesTo_quiet (quiet_of_same rfl)
  · exact movesTo_next s

theorem quiet_exportAdvance (phases : BitVec 16) (n r count : Nat) (b : Busy) (s : State) :
    Quiet s (exportAdvance phases n r count b s) := by
  refine quiet_of_ite (fun _ => ?_) fun _ => quiet_cu rfl
  refine Quiet.trans ?_ (quiet_flushAnswers _)
  refine Quiet.trans ?_ (quiet_formCompletion _ _ _ _)
  exact quiet_cu rfl

theorem quiet_exportVisit (phases : BitVec 16) (n r count : Nat) (b : Busy) (s : State) :
    Quiet s (exportVisit phases n r count b s) := by
  unfold exportVisit
  split
  · refine Quiet.trans ?_ (quiet_exportAdvance _ _ _ _ _ _)
    exact quiet_of_same rfl
  · exact quiet_exportAdvance _ _ _ _ _ s

theorem movesTo_exportVisit (s : State) : MovesTo s (execExportVisit s) := by
  unfold execExportVisit
  split
  · split
    · exact movesTo_quiet (quiet_exportVisit _ _ _ _ _ s)
    · exact movesTo_next s
  · exact movesTo_next s

theorem movesTo_placeNotice (s : State) : MovesTo s (execPlaceNotice s) := by
  unfold execPlaceNotice
  split
  next c _ =>
    refine movesTo_quiet (Quiet.trans (t := clearNotice c s) (quiet_clearNotice c s) ?_)
    exact quiet_of_same rfl
  next => exact movesTo_next s

theorem movesTo_clockTick (s : State) : MovesTo s (execClockTick s) := by
  refine movesTo_event ((moves_of_noted (noted_refl { s with clock := _ }) (by rfl) (beside_of_same (by rfl) (by rfl) (by rfl))).quiet (quiet_triggerIf _ _))

theorem movesTo_walkVisit (s : State) : MovesTo s (execWalkVisit s) := by
  unfold execWalkVisit
  split
  · refine movesTo_event (Moves.trans (Quiet.moves ?_) (moves_visitSlot _ _))
    exact quiet_of_same rfl
  · exact movesTo_next s

end Sys2Proof.Machine

namespace Sys2Proof.Machine

/-! #### The Hold and Force lines -/

/-- The Mirror Unit takes another stage, with the Hold that goes with it. -/
theorem quiet_mirror {s : State} {m : MirrorUnit} (hgroup : m.group ⊆ s.mirror.group)
    (hhold : s.holdSound → { s with mirror := m }.holdSound) : Quiet s { s with mirror := m } :=
  ⟨rfl, id, id, fun h m hm => h m (hgroup hm), hhold⟩

/-- An engine with a stage under way is a STANDBY, which asserts Hold where it claims. -/
theorem standby_of_stage {s : State} (h : s.holdSound) (hs : s.mirror.stage ≠ .settled) :
    s.mirror.role = .standby ∧ s.mirror.holdOut = s.mirror.stage.isClaim := by
  obtain ⟨hout, hactive⟩ := h
  have ha : s.isActive = false := eq_false_of_ne_true fun ha => hs (hactive ha)
  exact ⟨role_of_standby ha, by simpa [ha] using hout⟩

theorem holdSound_of_standby {s : State} (hr : s.mirror.role = .standby)
    (hout : s.mirror.holdOut = s.mirror.stage.isClaim) : s.holdSound := by
  simp [State.holdSound, State.isActive, hr, hout]

/-- With a stage under way, the engine takes another one. -/
theorem quiet_stage {s : State} {m : MirrorUnit} (hs : s.mirror.stage ≠ .settled) (hgroup : m.group ⊆ s.mirror.group)
    (hrole : m.role = s.mirror.role) (hout : s.mirror.holdOut = s.mirror.stage.isClaim → m.holdOut = m.stage.isClaim) :
    Quiet s { s with mirror := m } :=
  quiet_mirror hgroup fun h =>
    have ⟨hr, ho⟩ := standby_of_stage h hs
    holdSound_of_standby (hrole.trans hr) (hout ho)

theorem quiet_beginClaim {s : State} (cause : ClaimCause) (hs : s.mirror.stage ≠ .settled) :
    Quiet s (beginClaim cause s) := quiet_stage hs (List.Subset.refl _) rfl fun _ => rfl

theorem quiet_failClaim (cause : ClaimCause) (why : Detail) (s : State) : Quiet s (failClaim cause why s) :=
  quiet_of_ite (fun _ => (quiet_failTakeover why s).trans (quiet_flushAnswers _)) fun _ => quiet_refl s

theorem quiet_becomeStale (s : State) : Quiet s (becomeStale s) :=
  (quiet_mirror (m := { s.mirror with currency := .stale, group := [] }) (List.nil_subset _) id).trans
    (quiet_countNotice _ _ _)

theorem quiet_sendStop (s : State) : Quiet s (sendStop s) := quiet_of_same rfl

theorem quiet_withdraw {s : State} {cause : ClaimCause} (hs : s.mirror.stage = .claiming cause) (c : ClaimCause) :
    Quiet s (withdraw c s) := by
  have hne : s.mirror.stage ≠ .settled := by rw [hs]; nofun
  have h1 : Quiet s { s with mirror := { s.mirror with holdOut := false, stage := .settled } } :=
    quiet_stage hne (List.Subset.refl _) rfl fun _ => rfl
  unfold withdraw
  dsimp only
  split
  · refine h1.trans ?_
    exact quiet_of_same rfl
  · exact h1.trans (quiet_failClaim _ _ _)
  · refine quiet_of_ite (fun _ => ?_) fun _ => h1.trans (quiet_failClaim _ _ _)
    exact ((h1.trans (quiet_becomeStale _)).trans (quiet_sendStop _)).trans (quiet_failClaim _ _ _)

theorem movesTo_startupDelayEnd (b : Bool) (s : State) : MovesTo s (execStartupDelayEnd b s) := by
  refine movesTo_ready fun hr => Quiet.moves (quiet_of_ite (fun _ => ?_) fun _ => quiet_beginClaim _ ?_)
  all_goals have hdelay : s.mirror.stage = .delay := by simpa using hr
  · refine quiet_stage (by rw [hdelay]; nofun) (List.Subset.refl _) rfl fun ho => ?_
    rw [hdelay] at ho
    exact ho
  · rw [hdelay]
    nofun

theorem movesTo_holdAssertedDuringClaim (s : State) : MovesTo s (execHoldAssertedDuringClaim s) := by
  unfold execHoldAssertedDuringClaim
  split
  next hs => exact movesTo_quiet (quiet_withdraw hs _)
  next => exact movesTo_next s

theorem movesTo_claimComplete (s : State) : MovesTo s (execClaimComplete s) := by
  unfold execClaimComplete
  split
  next hs => exact movesTo_event (moves_roleTaken hs)
  next => exact movesTo_next s

theorem movesTo_partnerHoldReleased (s : State) : MovesTo s (execPartnerHoldReleased s) := by
  unfold execPartnerHoldReleased
  split
  next hs => exact movesTo_quiet (quiet_beginClaim _ (by rw [hs]; nofun))
  next => exact movesTo_next s

theorem movesTo_holdStuckTimeout (s : State) : MovesTo s (execHoldStuckTimeout s) := by
  unfold execHoldStuckTimeout
  split
  next hs =>
    refine movesTo_quiet (Quiet.trans ?_ (quiet_failClaim _ _ _))
    refine quiet_stage (by rw [hs]; nofun) (List.Subset.refl _) rfl fun ho => ?_
    rw [hs] at ho
    exact ho
  next => exact movesTo_next s

theorem movesTo_forcePulseEnd (s : State) : MovesTo s (execForcePulseEnd s) := by
  refine movesTo_ready fun hr => Quiet.moves ?_
  have hpulse : s.mirror.stage = .pulsing := by simpa using hr
  refine quiet_stage (by rw [hpulse]; nofun) (List.Subset.refl _) rfl fun ho => ?_
  rw [hpulse] at ho
  exact ho

theorem movesTo_forcePulseReleased (n : Nat) (b : Bool) (s : State) : MovesTo s (execForcePulseReleased n b s) :=
  movesTo_event (moves_of_ite (fun _ => moves_forcedReset s) fun _ => (quiet_countNotice _ _ s).moves)

/-! #### The Pair Link -/

theorem quiet_hearPair (s : State) : Quiet s (hearPair s) := quiet_of_same rfl

theorem quiet_endDrain (s : State) : Quiet s (endDrain s) := quiet_of_ite (fun _ => quiet_of_same rfl) fun _ => quiet_refl s

theorem quiet_pairDownActive (s : State) : Quiet s (pairDownActive s) :=
  quiet_of_ite (fun _ => (quiet_endDrain s).trans (quiet_stopMirroring _ _ _)) fun _ => quiet_endDrain s

theorem quiet_pairDownStandby (s : State) : Quiet s (pairDownStandby s) := by
  unfold pairDownStandby
  extract_lets s1 _ s2
  have h2 : Quiet s s2 := (quiet_becomeStale s).trans (quiet_of_same rfl)
  refine Quiet.trans ?_ (quiet_flushAnswers _)
  exact quiet_of_ite (fun _ => h2.trans (quiet_failTakeover _ _)) fun _ => h2

theorem movesTo_pairLinkDown (s : State) : MovesTo s (execPairLinkDown s) := by
  have hdown : Quiet s { s with mirror := { s.mirror with linkUp := false, silence := 200 } } := quiet_of_same rfl
  exact movesTo_quiet (quiet_of_ite (fun _ => hdown.trans (quiet_pairDownActive _)) fun _ =>
    hdown.trans (quiet_pairDownStandby _))

theorem movesTo_presenceDue (s : State) : MovesTo s (execPresenceDue s) := by
  refine movesTo_event (Quiet.moves ?_)
  exact quiet_of_same rfl

theorem movesTo_mirrorStop (good : Bool) (s : State) : MovesTo s (execMirrorStop good s) := by
  refine movesTo_quiet (quiet_of_ite (fun _ => ?_) fun _ => (quiet_hearPair s).trans (quiet_becomeStale _))
  exact ((quiet_hearPair s).trans (quiet_endDrain _)).trans (quiet_stopMirroring _ _ _)

theorem afterHandover_isClaim (held : Currency) (x : HoldStage) : (x.afterHandover held).isClaim = x.isClaim := by
  cases x with
  | waiting cause | claiming cause => cases cause <;> rfl
  | settled | delay | pulsing => rfl

theorem quiet_awaitHold {s : State} (h : s.isActive = false) : Quiet s (awaitHold s) := by
  have hr := role_of_standby h
  refine (quiet_mirror (m := { s.mirror with stage := s.mirror.stage.afterHandover s.mirror.currency })
    (List.Subset.refl _) fun hs => holdSound_of_standby hr ?_).trans (quiet_cu rfl)
  have hout : s.mirror.holdOut = s.mirror.stage.isClaim := by simpa [h] using hs.1
  exact hout.trans (afterHandover_isClaim _ _).symm

theorem quiet_compareHandover (next : Count16) (s : State) : Quiet s (compareHandover next s) := by
  refine quiet_of_ite (fun _ => quiet_of_same rfl) fun _ => Quiet.trans ?_ (quiet_countNotice _ _ _)
  exact quiet_of_same rfl

theorem movesTo_handover (good : Bool) (next : Count16) (s : State) : MovesTo s (execHandover good next s) := by
  refine movesTo_quiet (quiet_of_ite (fun _ => quiet_hearPair s) fun ha => ?_)
  have hstandby : (compareHandover next (hearPair s)).isActive = false := by
    rw [isActive_of_flow ((flow_compareHandover next _).trans (flow_hearPair s))]
    exact eq_false_of_ne_true ha
  exact ((quiet_hearPair s).trans (quiet_compareHandover next _)).trans (quiet_awaitHold hstandby)

theorem movesTo_holdFallNoHandover (s : State) : MovesTo s (execHoldFallNoHandover s) := by
  refine movesTo_ready fun hr => Quiet.moves ?_
  have hstale : Quiet s (countNotice .mirrorStale (.line .pair)
      { s with mirror := { s.mirror with currency := .stale } }) := by
    refine Quiet.trans ?_ (quiet_countNotice _ _ _)
    exact quiet_of_same rfl
  have hstandby : s.isActive = false := by
    simp only [State.standsBy, Bool.and_eq_true, Bool.not_eq_true'] at hr
    exact hr.1.2
  refine hstale.trans (quiet_awaitHold ((isActive_of_flow (flow_countNotice _ _ _)).trans ?_))
  exact hstandby

theorem movesTo_responseRelay (good : Bool) (a : Answer) (s : State) : MovesTo s (execResponseRelay good a s) := by
  refine movesTo_quiet (quiet_of_ite (fun _ => (quiet_hearPair s).trans ?_) fun _ => quiet_hearPair s)
  exact quiet_of_same rfl

theorem quiet_messageSent (t : PairTx) (s : State) : Quiet s (messageSent t s) := by
  unfold messageSent
  dsimp only
  split
  · exact quiet_of_same rfl
  · refine quiet_of_ite (fun _ => Quiet.trans ?_ (quiet_flushAnswers _)) fun _ => quiet_of_same rfl
    exact quiet_of_same rfl
  · exact quiet_of_same rfl

theorem quiet_copyDone (s : State) : Quiet s (copyDone s) := by
  unfold copyDone
  split
  · refine quiet_of_ite (fun _ => ?_) fun _ => quiet_refl s
    refine Quiet.trans (Quiet.trans ?_ (quiet_formCompletion _ _ _ _)) (quiet_flushAnswers _)
    exact quiet_of_same rfl
  · exact quiet_refl s

theorem movesTo_pairMessageSent (s : State) : MovesTo s (execPairMessageSent s) := by
  unfold execPairMessageSent
  split
  · exact movesTo_quiet (quiet_messageSent _ s)
  · exact movesTo_next s

theorem movesTo_copyEndSent (s : State) : MovesTo s (execCopyEndSent s) := by
  unfold execCopyEndSent
  split
  · exact movesTo_quiet ((quiet_messageSent _ s).trans (quiet_copyDone _))
  · exact movesTo_next s

theorem placeSteps_standing (ps : List Payload) (m : MirrorUnit) : (placeSteps ps m).standing = m.standing := by
  induction ps generalizing m with
  | nil => rfl
  | cons p rest ih => exact ih _

theorem movesTo_copyItemPlaced (s : State) : MovesTo s (execCopyItemPlaced s) := by
  unfold execCopyItemPlaced
  split
  · exact movesTo_quiet ⟨rfl, beside_of_same (placeSteps_standing _ _) rfl rfl⟩
  · exact movesTo_next s

theorem quiet_endExport (s : State) : Quiet s (endExport s) := by
  unfold endExport
  split
  · split
    · exact (quiet_formCompletion _ _ _ s).trans (quiet_flushAnswers _)
    · exact quiet_refl s
  · exact quiet_refl s

theorem quiet_beginDrain (s : State) : Quiet s (beginDrain s) := by
  refine Quiet.trans ?_ (quiet_endExport _)
  exact quiet_of_same rfl

theorem movesTo_yieldRequest (good : Bool) (s : State) : MovesTo s (execYieldRequest good s) :=
  movesTo_quiet (quiet_of_ite (fun _ => (quiet_hearPair s).trans (quiet_beginDrain _)) fun _ => quiet_hearPair s)

theorem movesTo_drainComplete (s : State) : MovesTo s (execDrainComplete s) := by
  unfold execDrainComplete
  split
  · exact movesTo_quiet (quiet_handOver s)
  · exact movesTo_next s

theorem movesTo_drainTimeout (s : State) : MovesTo s (execDrainTimeout s) :=
  movesTo_quiet (quiet_of_ite (fun _ => quiet_handOver s) fun _ => quiet_of_same rfl)

theorem movesTo_takeoverTimeout (s : State) : MovesTo s (execTakeoverTimeout s) :=
  movesTo_quiet ((quiet_failTakeover _ s).trans (quiet_flushAnswers _))

end Sys2Proof.Machine

namespace Sys2Proof.Machine

/-- The commands that are neither a POWER-ON or PIN reset nor a mirror write. -/
def Gradual (i : Instr) : Prop :=
  (∀ straps, i ≠ .powerOnReset straps ∧ i ≠ .pinReset straps) ∧ ∀ good m, i ≠ .mirrorWrite good m

theorem movesTo_exec {i : Instr} (hi : Gradual i) (s : State) : MovesTo s (exec i s) := by
  cases i with
  | recordFrameArrival l bytes => exact movesTo_recordFrameArrival l bytes s
  | creditFrameArrival l bytes => exact movesTo_creditFrameArrival l bytes s
  | creditFrameDue l => exact movesTo_creditFrameDue l s
  | silenceTimeout l => exact movesTo_silenceTimeout l s
  | lossOfSignal l => exact movesTo_event (moves_linkDown_tables l s)
  | attributeRecord => exact movesTo_attributeRecord s
  | sweep => exact movesTo_sweep s
  | listack => exact movesTo_listack s
  | time => exact movesTo_time s
  | forwardUnchanged l => exact movesTo_forwardUnchanged l s
  | controlForPartner => exact movesTo_controlForPartner s
  | controlCodeReject => exact movesTo_controlCodeReject s
  | openCase => exact movesTo_runCommand movesTables_openCase _ _ _ s
  | cancelCase => exact movesTo_runCommand movesTables_cancelCase _ _ _ s
  | acceptCase => exact movesTo_runCommand movesTables_acceptCase _ _ _ s
  | bindCase => exact movesTo_runCommand movesTables_bindCase _ _ _ s
  | forceProgress => exact movesTo_runCommand movesTables_forceProgress _ _ _ s
  | closeCase => exact movesTo_runCommand movesTables_closeCase _ _ _ s
  | readCase => exact movesTo_runCommand movesTables_readCase _ _ _ s
  | admitFeed => exact movesTo_runCommand movesTables_admitFeed _ _ _ s
  | retireFeed => exact movesTo_runCommand movesTables_retireFeed _ _ _ s
  | readFeed => exact movesTo_runCommand movesTables_readFeed _ _ _ s
  | setPolicy => exact movesTo_runCommand movesTables_setPolicy _ _ _ s
  | readPolicy => exact movesTo_runCommand movesTables_readPolicy _ _ _ s
  | beginProductLoad => exact movesTo_runCommand movesTables_beginLoad _ _ _ s
  | productData => exact movesTo_runCommand movesTables_productData _ _ _ s
  | readProduct => exact movesTo_runCommand movesTables_readProduct _ _ _ s
  | setNoticeMask => exact movesTo_runCommand movesTables_setMask _ _ _ s
  | clearNotices => exact movesTo_runCommand movesTables_clearNotices _ _ _ s
  | setMode => exact movesTo_runCommand movesTables_setMode _ _ _ s
  | readStatus => exact movesTo_runCommand (movesTables_readStatus _) _ _ _ s
  | engineReset => exact movesTo_runCommand movesTables_engineReset _ _ _ s
  | exportCases => exact movesTo_runCommand movesTables_exportCases _ _ _ s
  | resyncPartner => exact movesTo_runCommand movesTables_resyncPartner _ _ _ s
  | takeover => exact movesTo_runCommand movesTables_takeover _ _ _ s
  | forcedTakeover => exact movesTo_runCommand movesTables_forcedTakeover _ _ _ s
  | upwardArbiterChoice => exact movesTo_upwardArbiterChoice s
  | downwardArbiterChoice => exact movesTo_downwardArbiterChoice s
  | forwardedRecordCompletes l => exact movesTo_quiet (quiet_of_same rfl)
  | insertedRecordCompletes => exact movesTo_insertedRecordCompletes s
  | emissionRecordCompletes => exact movesTo_emissionRecordCompletes s
  | addInjected => exact movesTo_addInjected s
  | removeInjected => exact movesTo_removeInjected s
  | placeCommandRecord => exact movesTo_quiet (quiet_placeAnswer s)
  | placeRelay => exact movesTo_placeRelay s
  | exportVisit => exact movesTo_exportVisit s
  | placeNotice => exact movesTo_placeNotice s
  | clockTick => exact movesTo_clockTick s
  | walkVisit => exact movesTo_walkVisit s
  | powerOnReset straps => exact absurd rfl (hi.1 straps).1
  | pinReset straps => exact absurd rfl (hi.1 straps).2
  | startupDelayEnd b => exact movesTo_startupDelayEnd b s
  | holdAssertedDuringClaim => exact movesTo_holdAssertedDuringClaim s
  | claimComplete => exact movesTo_claimComplete s
  | partnerHoldReleased => exact movesTo_partnerHoldReleased s
  | holdStuckTimeout => exact movesTo_holdStuckTimeout s
  | forcePulseEnd => exact movesTo_forcePulseEnd s
  | forcePulseReleased n b => exact movesTo_forcePulseReleased n b s
  | pairLinkDown => exact movesTo_pairLinkDown s
  | presenceDue => exact movesTo_presenceDue s
  | presence good => exact movesTo_quiet (quiet_hearPair s)
  | mirrorWrite good m => exact absurd rfl (hi.2 good m)
  | mirrorStop good => exact movesTo_mirrorStop good s
  | handover good next => exact movesTo_handover good next s
  | responseRelay good a => exact movesTo_responseRelay good a s
  | yieldRequest good => exact movesTo_yieldRequest good s
  | pairMessageSent => exact movesTo_pairMessageSent s
  | copyItemPlaced => exact movesTo_copyItemPlaced s
  | copyEndSent => exact movesTo_copyEndSent s
  | drainComplete => exact movesTo_drainComplete s
  | drainTimeout => exact movesTo_drainTimeout s
  | takeoverTimeout => exact movesTo_takeoverTimeout s
  | holdFallNoHandover => exact movesTo_holdFallNoHandover s
  | creditFrameSent l => exact movesTo_creditFrameSent l s

/-- The queue's rest is no part of what the invariants read. -/
theorem quiet_pending (s : State) (rest : List Instr) : Quiet s { s with pending := rest } := quiet_of_same rfl

theorem step_of_pending {s : State} {i : Instr} {rest : List Instr} (h : s.pending = i :: rest) :
    step s = exec i { s with pending := rest } := by
  unfold step
  rw [h]

theorem step_of_idle {s : State} (h : s.pending = []) : step s = .next s := by
  unfold step
  rw [h]

theorem moves_step {s t : State} {i : Instr} {rest : List Instr} (hp : s.pending = i :: rest) (hi : Gradual i)
    (h : step s = .next t) : Moves s t := by
  rw [step_of_pending hp] at h
  exact (quiet_pending s rest).moves.trans (movesTo_exec hi _ t h)

/-! ### Resets and mirror writes -/

/-- A POWER-ON or PIN reset has the state cleared, with the role and the Hold of the strap (R162, R163). -/
theorem quiet_startUp (cause : ResetCause) (straps : Straps) (s : State) :
    Quiet
      { clearedBy cause straps s with
        mirror :=
          if straps.pair then { straps := straps, stage := .delay }
          else { straps := straps, role := .active, holdOut := true } }
      (startUp cause straps s) := by
  unfold startUp
  extract_lets t
  by_cases h : straps.pair = true
  · simp only [h, if_true]
    exact quiet_refl _
  · simp only [h]
    exact (quiet_countNotice _ _ _).trans (quiet_trigger _)

end Sys2Proof.Machine

namespace Sys2Proof.Machine

theorem caseTableSound_of_empty {s : State} (hs : s.slots = []) (hp : s.spill = []) : s.caseTableSound := by
  have hnone (n : Nat) : s.caseAt n = none := by
    rw [State.caseAt, State.slotAt, hs]
    rfl
  refine ⟨by rw [hs]; exact .nil, fun n c h => ?_, fun n m c d h => ?_, fun set => ?_⟩
  · cases (hnone n).symm.trans h
  · cases (hnone n).symm.trans h
  · rw [State.spillAt, hp]
    simp only [hnone, Option.any_none, List.countP_false]
    rfl

theorem Ledger.Formed.reset : Ledger.Formed ⟨[], [], [], {}, [], {}⟩ := by
  constructor <;> decide

theorem wf_noNotices : SMap.wf ([] : SMap NoticeEntry) {} 17 := by decide

/-- What a POWER-ON or PIN reset leaves meets the invariants that the tables and the Hold line have. -/
theorem startUp_sound (cause : ResetCause) (straps : Straps) (s : State) :
    let t := finish (startUp cause straps s)
    t.caseTableSound ∧ t.holdSound ∧ t.ledger.Formed ∧ SMap.wf t.notices.entries {} 17 ∧ t.sessionSound ∧
      t.groupSound := by
  intro t
  have h := (quiet_startUp cause straps s).trans (quiet_finish _)
  have hledger := h.tables
  refine ⟨caseTableSound_of_empty (congrArg Tables.slots h.tables) (congrArg Tables.spill h.tables),
    h.beside.hold ?_, ?_, h.beside.notices wf_noNotices, h.beside.session nofun, h.beside.group ?_⟩
  · by_cases hpair : straps.pair = true <;> simp [hpair, State.holdSound, State.isActive, HoldStage.isClaim]
  · have hslots : t.ledger = ⟨[], [], [], {}, [], {}⟩ := congrArg (fun x : Tables =>
      (⟨x.slots, x.spill, x.feeds, x.horizon, x.products, x.policy⟩ : Ledger)) h.tables
    rw [hslots]
    exact .reset
  · refine groupSound_of_empty ?_
    by_cases hpair : straps.pair = true <;> simp [hpair]

/-- Settles O25: each move raises H and Vs, or leaves them. -/
theorem horizonNeverFalls : Obligations.HorizonNeverFalls := by
  unfold Obligations.HorizonNeverFalls
  intro i rest s t hp hreset hmirror h hstep
  exact (moves_step hp ⟨hreset, hmirror⟩ hstep).raises h

theorem next_startUp {s t : State} {i : Instr} {rest : List Instr} {cause : ResetCause} {straps : Straps}
    (hp : s.pending = i :: rest) (hi : ∀ u, exec i u = event true (startUp cause straps) u) (h : step s = .next t) :
    t = finish (startUp cause straps { s with pending := rest }) := by
  rw [step_of_pending hp, hi] at h
  exact (Host.Outcome.next.inj h).symm

/-- Settles O58: each move keeps the Case Table sound, and a reset empties it. -/
theorem caseTableStaysSound : Obligations.CaseTableStaysSound := by
  unfold Obligations.CaseTableStaysSound
  intro i rest s t hp hmirror h hstep
  by_cases hreset : ∀ straps, i ≠ .powerOnReset straps ∧ i ≠ .pinReset straps
  · exact (moves_step hp ⟨hreset, hmirror⟩ hstep).caseTable h
  · simp only [not_forall, not_and_or, not_not] at hreset
    obtain ⟨straps, rfl | rfl⟩ := hreset
    · exact next_startUp (cause := .powerOn) hp (fun _ => rfl) hstep ▸ (startUp_sound _ _ _).1
    · exact next_startUp (cause := .pin) hp (fun _ => rfl) hstep ▸ (startUp_sound _ _ _).1

/-! ### Mirror writes -/

/-- The part of the Mirror Unit that the Hold line is made of. -/
def MirrorUnit.line (m : MirrorUnit) : Role × HoldStage × Bool := (m.role, m.stage, m.holdOut)

theorem line_of_noted {s e t : State} (n : Noted e t) (h : e.mirror.line = s.mirror.line) :
    t.mirror.line = s.mirror.line := by
  rw [n.1]
  exact h

theorem line_applyWrite (w : TableWrite) (s : State) : (applyWrite w s).mirror.line = s.mirror.line := by
  cases w with
  | policy p => exact line_of_noted (noted_setPolicy (noted_refl s) p) rfl
  | product code e => exact line_of_noted (noted_setProduct (noted_refl s) code e) rfl
  | feed n e => exact line_of_noted (noted_setFeed (noted_refl s) n e) rfl
  | horizon x => exact line_of_noted (noted_setHorizon (noted_refl s) x) rfl
  | list i => exact line_of_noted (noted_setInjector (noted_refl s) i) rfl
  | clock c => exact line_of_noted (noted_setClock (noted_refl s) c) rfl
  | notice c e => exact line_of_noted (noted_setNotice (noted_refl s) c e) rfl
  | slot n x => exact line_of_noted (noted_fillSlot (noted_refl s) n x) rfl
  | listOp op => exact line_of_noted (noted_doListOp (noted_refl s) op) rfl
  | emitOp op => exact line_of_noted (noted_doEmitOp (noted_refl s) op) rfl

theorem line_applyPayload (p : Payload) (s : State) : (applyPayload p s).mirror.line = s.mirror.line := by
  cases p with
  | write w part parts =>
    rw [applyPayload]
    split
    · exact line_applyWrite w s
    · rfl
  | copyBegin | copyEnd | listRun | emitRun => rfl

theorem line_applyGroup (ms : List MirrorWrite) (s : State) : (applyGroup ms s).mirror.line = s.mirror.line := by
  induction ms generalizing s with
  | nil => rfl
  | cons m rest ih => exact (ih _).trans (line_applyPayload _ s)

theorem line_joinGroup (m : MirrorWrite) (s : State) : (joinGroup m s).mirror.line = s.mirror.line := by
  unfold joinGroup
  dsimp only
  split
  · exact line_applyGroup _ _
  · rfl

theorem line_becomeStale (s : State) : (becomeStale s).mirror.line = s.mirror.line :=
  line_of_noted (s := s) (noted_countNotice (noted_refl _) _ _) rfl

theorem line_sendStop (s : State) : (sendStop s).mirror.line = s.mirror.line := rfl

theorem line_gapFound (w : MirrorWrite) (s : State) : (gapFound w s).mirror.line = s.mirror.line := by
  unfold gapFound
  extract_lets _ t
  refine (line_sendStop _).trans ?_
  split
  · exact line_becomeStale t
  · rfl

theorem line_takeMirrorWrite (w : MirrorWrite) (s : State) : (takeMirrorWrite w s).mirror.line = s.mirror.line := by
  unfold takeMirrorWrite
  split
  · rfl
  · split
    · split
      · unfold takeExpected takeCopyEnd
        split <;> exact line_joinGroup _ _
      · exact line_gapFound w s
    · rfl

theorem holdSound_of_line {s t : State} (hline : t.mirror.line = s.mirror.line) (h : s.holdSound) : t.holdSound := by
  simp only [MirrorUnit.line, Prod.mk.injEq] at hline
  obtain ⟨hr, hs, ho⟩ := hline
  simpa only [State.holdSound, State.isActive, hr, hs, ho] using h

theorem holdSound_mirrorWrite (good : Bool) (m : MirrorWrite) {s t : State} (h : s.holdSound)
    (hstep : execMirrorWrite good m s = .next t) : t.holdSound := by
  rw [← Host.Outcome.next.inj hstep]
  split
  · refine (quiet_finish _).beside.hold ?_
    dsimp only
    split
    · exact (quiet_hearPair s).beside.hold h
    · exact holdSound_of_line (line_takeMirrorWrite m _) ((quiet_hearPair s).beside.hold h)
  · exact h

/-- The commands that are not gradual. -/
theorem gradual_or (i : Instr) :
    Gradual i ∨ (∃ straps, i = .powerOnReset straps ∨ i = .pinReset straps) ∨ ∃ good m, i = .mirrorWrite good m := by
  by_cases h1 : ∃ straps, i = .powerOnReset straps ∨ i = .pinReset straps
  · exact .inr (.inl h1)
  · by_cases h2 : ∃ good m, i = .mirrorWrite good m
    · exact .inr (.inr h2)
    · refine .inl ⟨fun straps => ⟨fun h => h1 ⟨straps, .inl h⟩, fun h => h1 ⟨straps, .inr h⟩⟩, fun good m h => h2 ⟨good, m, h⟩⟩

/-- Settles O56: a stage under way is a STANDBY's, each change of stage sets Hold with it, and a reset or a mirror write
keeps the two together. -/
theorem holdFollowsRole : Obligations.HoldFollowsRole := by
  unfold Obligations.HoldFollowsRole
  intro s t h hstep
  cases hp : s.pending with
  | nil =>
    rw [step_of_idle hp] at hstep
    exact Host.Outcome.next.inj hstep ▸ h
  | cons i rest =>
    rcases gradual_or i with hi | ⟨straps, rfl | rfl⟩ | ⟨good, m, rfl⟩
    · exact (moves_step hp hi hstep).beside.hold h
    · exact next_startUp (cause := .powerOn) hp (fun _ => rfl) hstep ▸ (startUp_sound _ _ _).2.1
    · exact next_startUp (cause := .pin) hp (fun _ => rfl) hstep ▸ (startUp_sound _ _ _).2.1
    · rw [step_of_pending hp] at hstep
      exact holdSound_mirrorWrite good m ((quiet_pending s rest).beside.hold h) hstep

end Sys2Proof.Machine

namespace Sys2Proof.Machine

/-- A step keeps what stands beside the tables, and the tables' forms, where the pending group is sound. -/
def Upheld (s t : State) : Prop := s.groupSound → Beside s t ∧ (s.ledger.Formed → t.ledger.Formed)

theorem upheld_refl (s : State) : Upheld s s := fun _ => ⟨beside_refl s, id⟩

theorem Upheld.trans {s t u : State} (h : Upheld s t) (k : Upheld t u) : Upheld s u := fun hg =>
  have ⟨hb, hf⟩ := h hg
  have ⟨kb, kf⟩ := k (hb.group hg)
  ⟨hb.trans kb, kf ∘ hf⟩

theorem Quiet.upheld {s t : State} (h : Quiet s t) : Upheld s t := by
  refine fun _ => ⟨h.beside, fun hf => ?_⟩
  have hl : t.ledger = s.ledger := congrArg (fun x : Tables =>
    (⟨x.slots, x.spill, x.feeds, x.horizon, x.products, x.policy⟩ : Ledger)) h.tables
  rw [hl]
  exact hf

/-- A write within its ranges keeps the tables' forms (R98, R101, 11.8). -/
theorem formed_applyWrite {w : TableWrite} {s : State} (hw : w.inRange = true) (h : s.ledger.Formed) :
    (applyWrite w s).ledger.Formed := by
  cases w with
  | policy p => exact { h with policy := hw }
  | product code e =>
    simp only [TableWrite.inRange, Bool.and_eq_true, decide_eq_true_eq] at hw
    exact { h with products := wf_setD h.products hw.1 e }
  | feed n e =>
    simp only [TableWrite.inRange, Bool.and_eq_true, decide_eq_true_eq] at hw
    exact { h with feeds := wf_setD h.feeds hw.1 e }
  | slot n x =>
    simp only [TableWrite.inRange, Bool.and_eq_true, decide_eq_true_eq] at hw
    exact formed_of_fill h hw.1 x
  | horizon | list | clock | notice | listOp | emitOp => exact { h with }

theorem beside_applyWrite (w : TableWrite) (s : State) : Beside s (applyWrite w s) := by
  cases w with
  | policy p => exact beside_of_noted (noted_setPolicy (noted_refl s) p) rfl rfl rfl
  | product code e => exact beside_of_noted (noted_setProduct (noted_refl s) code e) rfl rfl rfl
  | feed n e => exact beside_of_noted (noted_setFeed (noted_refl s) n e) rfl rfl rfl
  | horizon x => exact beside_of_noted (noted_setHorizon (noted_refl s) x) rfl rfl rfl
  | list i => exact beside_of_noted (noted_setInjector (noted_refl s) i) rfl rfl rfl
  | clock c => exact beside_of_noted (noted_setClock (noted_refl s) c) rfl rfl rfl
  | notice c e => exact beside_setNotice s c e
  | slot n x => exact beside_of_noted (noted_fillSlot (noted_refl s) n x) rfl rfl rfl
  | listOp op => exact beside_of_noted (noted_doListOp (noted_refl s) op) rfl rfl rfl
  | emitOp op => exact beside_of_noted (noted_doEmitOp (noted_refl s) op) rfl rfl rfl

theorem upheld_applyPayload {p : Payload} (hp : p.inRange = true) (s : State) : Upheld s (applyPayload p s) := by
  cases p with
  | write w part parts =>
    simp only [Payload.inRange, Bool.and_eq_true] at hp
    rw [applyPayload]
    split
    · exact fun _ => ⟨beside_applyWrite w s, formed_applyWrite hp.2⟩
    · exact upheld_refl s
  | copyBegin | copyEnd => exact upheld_refl s
  | listRun | emitRun => exact fun _ => ⟨beside_of_same rfl rfl rfl, id⟩

theorem upheld_applyGroup {ms : List MirrorWrite} (h : ∀ m ∈ ms, m.payload.inRange = true) (s : State) :
    Upheld s (applyGroup ms s) := by
  induction ms generalizing s with
  | nil => exact upheld_refl s
  | cons m rest ih =>
    exact (upheld_applyPayload (h m List.mem_cons_self) s).trans (ih (fun x hx => h x (List.mem_cons_of_mem _ hx)) _)

/-- A message joins the pending group, which is applied whole with its last one (R166). -/
theorem upheld_joinGroup {m : MirrorWrite} (hm : m.payload.inRange = true) (s : State) : Upheld s (joinGroup m s) := by
  intro hg
  have hjoined : ∀ x ∈ s.mirror.group ++ [m], x.payload.inRange = true := by
    intro x hx
    rcases List.mem_append.mp hx with hx | hx
    · exact hg x hx
    · rwa [List.mem_singleton.mp hx]
  unfold joinGroup
  extract_lets _ u
  split
  · have hempty : Upheld s { s with mirror := { u with group := [] } } :=
      fun _ => ⟨⟨id, id, fun _ => groupSound_of_empty rfl, id⟩, id⟩
    exact hempty.trans (upheld_applyGroup hjoined _) hg
  · exact ⟨⟨id, id, fun _ => hjoined, id⟩, id⟩

theorem upheld_takeMirrorWrite {w : MirrorWrite} (hw : w.payload.inRange = true) (s : State) :
    Upheld s (takeMirrorWrite w s) := by
  unfold takeMirrorWrite
  split
  · exact fun _ => ⟨⟨id, id, fun _ => groupSound_of_empty rfl, id⟩, id⟩
  · split
    · split
      · have htaking : Upheld s
            { s with mirror := { s.mirror with copyRx := if w.copyStep then .taking else s.mirror.copyRx } } :=
          Quiet.upheld (quiet_of_same rfl)
        refine (htaking.trans (upheld_joinGroup hw _)).trans (Quiet.upheld ?_)
        exact quiet_of_ite (fun _ => quiet_of_same rfl) fun _ => quiet_refl _
      · unfold gapFound
        extract_lets _ t
        have hgap : Quiet s t := quiet_mirror (m := t.mirror) (List.nil_subset _) id
        refine Quiet.upheld (Quiet.trans ?_ (quiet_sendStop _))
        exact quiet_of_ite (fun _ => hgap.trans (quiet_becomeStale _)) fun _ => hgap
    · exact upheld_refl s

theorem upheld_mirrorWrite {good : Bool} {m : MirrorWrite} (hm : m.payload.inRange = true) {s t : State}
    (hstep : execMirrorWrite good m s = .next t) : Upheld s t := by
  rw [← Host.Outcome.next.inj hstep]
  split
  · refine Upheld.trans ?_ (quiet_finish _).upheld
    dsimp only
    split
    · exact (quiet_hearPair s).upheld
    · exact (quiet_hearPair s).upheld.trans (upheld_takeMirrorWrite hm _)
  · exact upheld_refl s

theorem sound_iff {s : State} :
    s.policySound ∧ s.canonical ↔
      s.ledger.Formed ∧ s.groupSound ∧ SMap.wf s.notices.entries {} 17 ∧ s.sessionSound := by
  constructor
  · rintro ⟨⟨hpolicy, hgroup⟩, hslots, hfeeds, hproducts, hnotices, hspill, hsession⟩
    exact ⟨⟨hslots, hfeeds, hproducts, hspill, hpolicy⟩, hgroup, hnotices, hsession⟩
  · rintro ⟨⟨hslots, hfeeds, hproducts, hspill, hpolicy⟩, hgroup, hnotices, hsession⟩
    exact ⟨⟨hpolicy, hgroup⟩, hslots, hfeeds, hproducts, hnotices, hspill, hsession⟩

/-- Every event of a well-formed command keeps what stands beside the tables, and their forms; or it is a reset. -/
theorem formed_step {s t : State} (hwf : ∀ i ∈ s.pending, i.wf = true)
    (h : s.ledger.Formed ∧ s.groupSound ∧ SMap.wf s.notices.entries {} 17 ∧ s.sessionSound)
    (hstep : step s = .next t) :
    t.ledger.Formed ∧ t.groupSound ∧ SMap.wf t.notices.entries {} 17 ∧ t.sessionSound := by
  obtain ⟨hf, hg, hn, hs⟩ := h
  have hof {u : State} (hb : Beside s u) (hu : u.ledger.Formed) :
      u.ledger.Formed ∧ u.groupSound ∧ SMap.wf u.notices.entries {} 17 ∧ u.sessionSound :=
    ⟨hu, hb.group hg, hb.notices hn, hb.session hs⟩
  have hreset (cause : ResetCause) (straps : Straps) (u : State) :
      let v := finish (startUp cause straps u)
      v.ledger.Formed ∧ v.groupSound ∧ SMap.wf v.notices.entries {} 17 ∧ v.sessionSound := by
    obtain ⟨-, -, h1, h2, h3, h4⟩ := startUp_sound cause straps u
    exact ⟨h1, h4, h2, h3⟩
  cases hp : s.pending with
  | nil =>
    rw [step_of_idle hp] at hstep
    exact Host.Outcome.next.inj hstep ▸ hof (beside_refl s) hf
  | cons i rest =>
    rcases gradual_or i with hi | ⟨straps, rfl | rfl⟩ | ⟨good, m, rfl⟩
    · have hm := moves_step hp hi hstep
      exact hof hm.beside (hm.formed hs hf)
    · exact next_startUp (cause := .powerOn) hp (fun _ => rfl) hstep ▸ hreset _ _ _
    · exact next_startUp (cause := .pin) hp (fun _ => rfl) hstep ▸ hreset _ _ _
    · have hm : m.payload.inRange = true :=
        hwf (.mirrorWrite good m) (by rw [hp]; exact List.mem_cons_self)
      rw [step_of_pending hp] at hstep
      obtain ⟨hb, hformed⟩ := (quiet_pending s rest).upheld.trans (upheld_mirrorWrite hm hstep) hg
      exact hof hb (hformed hf)

/-- Settles O57: each move keeps the tables' forms, a reset empties them, and a mirror write stays in its ranges. -/
theorem tablesStayInForm : Obligations.TablesStayInForm := by
  unfold Obligations.TablesStayInForm
  intro s t hwf hpolicy hcanonical hstep
  exact sound_iff.mpr (formed_step hwf (sound_iff.mp ⟨hpolicy, hcanonical⟩) hstep)

end Sys2Proof.Machine

/-! The block and its ports (01_the_record_path.md): each event's effect on a port or a queue, and what ends it. -/

namespace Sys2Proof.Machine

/-- Settles O1. -/
theorem stepRunsFrontCommand : Obligations.StepRunsFrontCommand := fun _ _ _ => rfl

/-! ### Ports -/

/-- A change of a port depends on what it makes of that port alone. -/
theorem onPort_congr {s : State} {l : Line} {f g : Port → Port} (h : f (s.port l) = g (s.port l)) :
    s.onPort l f = s.onPort l g := by
  cases l with
  | station => exact congrArg (fun p => { s with station := p }) h
  | centre => exact congrArg (fun p => { s with centre := p }) h

theorem noted_onPort {a b : State} (h : Noted a b) (l : Line) (f : Port → Port) :
    Noted (a.onPort l f) (b.onPort l f) := by
  refine ⟨?_, h.2⟩
  conv_lhs => rw [h.1]
  rfl

theorem exec_recordFrame {l : Line} {bytes : List Byte} {f : Frame} (s : State) (h : Frame.ofBytes bytes = some f) :
    exec (.recordFrameArrival l bytes) s = event (f.kind != kindCredit) (recordArrives l f) s := by
  simp only [exec, execRecordFrameArrival, h]

theorem exec_creditFrame {l : Line} {bytes : List Byte} {f : Frame} (s : State) (h : Frame.ofBytes bytes = some f) :
    exec (.creditFrameArrival l bytes) s = event (f.kind == kindCredit) (creditArrives l f.body) s := by
  simp only [exec, execCreditFrameArrival, h]

theorem recordArrives_of_room {l : Line} {f : Frame} {s : State} (ha : s.isActive = true)
    (h : (s.port l).rx.length < 16) :
    recordArrives l f s = s.onPort l fun p =>
      { p with linkUp := true, silence := 0, nr := p.nr + 1, rx := p.rx ++ [f]
               counters := { p.counters with good := min 4294967295 (p.counters.good + 1) } } := by
  rw [recordArrives, if_pos ha, decide_eq_false (by omega)]
  refine onPort_congr (s := s) (l := l) (f := fun p => p.hear.receive f) ?_
  exact if_pos h

theorem recordArrives_of_full {l : Line} {f : Frame} {s : State} (ha : s.isActive = true)
    (h : ¬(s.port l).rx.length < 16) :
    recordArrives l f s = countNotice .checkword (.line l.subject) (s.onPort l fun p =>
      { p with linkUp := true, silence := 0, nr := p.nr + 1
               counters := { p.counters with discards := min 4294967295 (p.counters.discards + 1) } }) := by
  rw [recordArrives, if_pos ha, decide_eq_true (by omega)]
  exact congrArg (countNotice _ _) (onPort_congr (if_neg h))

theorem recordArrives_of_standby {l : Line} {f : Frame} {s : State} (ha : s.isActive = false) :
    recordArrives l f s = s.onPort l fun p =>
      { p with linkUp := true, silence := 0
               rx := if l = .centre ∧ namesMember s.mirror.straps f = true ∧ p.rx.length < 16 then p.rx ++ [f]
                     else p.rx } := by
  rw [recordArrives, if_neg (by simp [ha])]
  refine onPort_congr ?_
  by_cases hroom : (s.port l).rx.length < 16 <;> simp [Port.keep, Port.hear, hroom]

/-- Settles O2: the branches of `recordArrives`, each with the port it leaves. -/
theorem recordFrameIsTaken : Obligations.RecordFrameIsTaken := by
  unfold Obligations.RecordFrameIsTaken
  refine ⟨fun l bytes f s hf hk ha => ?_, fun l bytes f s hf hk ha => ?_, fun l bytes s hf => ?_⟩
  · refine ⟨_, (exec_recordFrame s hf).trans (event_next (by simpa using hk)), ?_⟩
    split
    next hroom =>
      rw [recordArrives_of_room ha hroom]
      exact ended_finish (noted_refl _)
    next hfull =>
      rw [recordArrives_of_full ha hfull]
      exact ended_finish (noted_countNotice (noted_refl _) _ _)
  · refine ⟨_, (exec_recordFrame s hf).trans (event_next (by simpa using hk)), ?_⟩
    rw [recordArrives_of_standby ha]
    exact ended_finish (noted_refl _)
  · simp only [exec, execRecordFrameArrival, execCreditFrameArrival, hf, and_self]

theorem missing_eq (c : Credit) (p : Port) :
    p.missing c =
      if c.first = true ∨ p.first = true ∨ 16 < (c.sent - p.nr).toNat then 0 else (c.sent - p.nr).toNat := by
  simp only [Port.missing, Bool.or_eq_true, ← or_assoc]
  by_cases h1 : c.first = true ∨ p.first = true
  · simp only [h1, if_true, true_or]
  · by_cases h2 : (c.sent - p.nr).toNat ≤ 16
    · simp only [h1, h2, if_false, if_true, false_or, Nat.not_lt.mpr h2]
    · simp only [h1, h2, if_false, false_or, Nat.lt_of_not_le h2, if_true]

/-- The three steps of R3 make one change of the port. -/
theorem creditArrives_of_active {l : Line} {body : List Byte} {c : Credit} {s : State}
    (hc : Credit.ofBody body = some c) (ha : s.isActive = true) :
    creditArrives l body s = countIf (decide (1 ≤ (s.port l).missing c)) .checkword (.line l.subject)
      (s.onPort l fun p =>
        { p with linkUp := true, silence := 0, nr := c.sent, first := false
                 lh := if c.first then none else some c.limit
                 counters := { p.counters with
                   discards := min 4294967295 (p.counters.discards + (s.port l).missing c) } }) := by
  simp only [creditArrives, hc, ha, if_true]
  exact congrArg (countIf _ _ _) (onPort_congr rfl)

theorem creditArrives_of_standby {l : Line} {body : List Byte} {s : State} (ha : s.isActive = false) :
    creditArrives l body s = s.onPort l Port.hear := by
  unfold creditArrives
  split <;> simp [ha]

/-- Settles O3. -/
theorem creditFrameAligns : Obligations.CreditFrameAligns := by
  unfold Obligations.CreditFrameAligns
  refine ⟨fun l bytes f c s hf hk hc => ?_, fun l bytes f s hf hk hlen => ?_⟩
  · refine ⟨_, (exec_creditFrame s hf).trans (event_next (by simpa using hk)), ?_⟩
    dsimp only
    rw [← missing_eq]
    split
    next ha =>
      rw [creditArrives_of_active hc ha]
      by_cases hlost : (s.port l).missing c = 0
      · rw [decide_eq_false (by omega), if_pos hlost]
        exact ended_finish (noted_refl _)
      · rw [decide_eq_true (by omega), if_neg hlost]
        exact ended_finish (noted_countNotice (noted_refl _) _ _)
    next ha =>
      rw [creditArrives_of_standby (eq_false_of_ne_true ha)]
      exact ended_finish (noted_refl _)
  · refine ends (exec_creditFrame s hf) (by simpa using hk) ?_
    rw [creditArrives, Credit.ofBody, if_neg hlen]
    exact noted_refl _

/-! ### Credit -/

/-- The granted limit of a port that grants: Nr and the free places of its buffer (R2). -/
theorem lg_of_granting {p : Port} (h : p.heldGrant = none) : p.lg = p.nr + BitVec.ofNat 16 (16 - p.rx.length) := by
  rw [Port.lg, h, Option.getD_none]

theorem add_one_ofNat (x : Count16) {m n : Nat} (h : n = m + 1) :
    x + 1 + BitVec.ofNat 16 m = x + BitVec.ofNat 16 n := by
  subst h
  rw [BitVec.ofNat_add, BitVec.add_assoc, BitVec.add_comm 1]
  rfl

/-- A frame appended leaves Lg: Nr is one higher and a place fewer is free (R1, R2). -/
theorem lg_receive_of_room {p : Port} (hg : p.heldGrant = none) (f : Frame) (h : p.rx.length < 16) :
    (p.receive f).lg = p.lg := by
  have hr : p.receive f = { p with nr := p.nr + 1, rx := p.rx ++ [f], counters := (p.receive f).counters } := by
    rw [Port.receive, if_pos h]
  rw [hr, lg_of_granting hg, lg_of_granting (by exact hg)]
  exact add_one_ofNat _ (by rw [List.length_append, List.length_singleton]; omega)

/-- A frame discarded raises Lg with Nr (R1, R2). -/
theorem lg_receive_of_full {p : Port} (hg : p.heldGrant = none) (f : Frame) (h : p.rx.length = 16) :
    (p.receive f).lg = p.lg + 1 := by
  have hr : p.receive f = { p with nr := p.nr + 1, counters := (p.receive f).counters } := by
    rw [Port.receive, if_neg (by omega)]
    rfl
  rw [hr, lg_of_granting hg, lg_of_granting (by exact hg), h]
  simp

/-- A frame taken frees a place (R2). -/
theorem lg_take {p : Port} (hg : p.heldGrant = none) (hlen : p.rx.length ≤ 16) (h : p.rx ≠ []) :
    p.take.lg = p.lg + 1 := by
  have hpos := List.length_pos_of_ne_nil h
  rw [lg_of_granting hg, lg_of_granting (by exact hg)]
  simp only [Port.take, List.length_tail]
  rw [BitVec.add_assoc, BitVec.add_comm _ 1, ← BitVec.add_assoc]
  exact (add_one_ofNat _ (by omega)).symm

theorem startCredit_of_due {p : Port} (htx : p.tx = .idle) (hdue : p.creditDue = true) :
    (p.startCredit true).tx = .credit p.lg p.ns p.first := by
  simp [Port.startCredit, Port.creditWanted, htx, hdue]

theorem State.ended_port {e t : State} (h : e.ended t) (l : Line) : t.port l = (e.port l).startCredit e.isActive := by
  obtain ⟨-, -, hstation, hcentre, -⟩ := h
  cases l with
  | station => exact hstation
  | centre => exact hcentre

theorem onPort_port (s : State) (l : Line) (f : Port → Port) : (s.onPort l f).port l = f (s.port l) := by
  cases l <;> rfl

theorem exec_creditFrameDue (l : Line) (s : State) :
    exec (.creditFrameDue l) s = event s.isActive (fun s => s.onPort l fun p => { p with creditDue := true }) s := rfl

theorem exec_creditFrameSent (l : Line) (s : State) :
    exec (.creditFrameSent l) s = event (s.port l).tx.isCredit (fun s => s.onPort l fun p => { p with tx := .idle }) s :=
  rfl

/-- Settles O4. -/
theorem creditFramesAreSent : Obligations.CreditFramesAreSent := by
  unfold Obligations.CreditFramesAreSent
  refine ⟨fun l s ha => ?_, fun l lg ns first s htx => ?_, fun p f hg hlen => ⟨?_, ?_, ?_, rfl, ?_⟩⟩
  · have hended := ended_finish (noted_refl (s.onPort l fun p => { p with creditDue := true }))
    refine ⟨_, (exec_creditFrameDue l s).trans (event_next ha), hended, fun htx => ?_⟩
    rw [State.ended_port hended l, onPort_port]
    have hactive : (s.onPort l fun p => { p with creditDue := true }).isActive = true := ha
    rw [hactive]
    exact startCredit_of_due (p := { s.port l with creditDue := true }) htx rfl
  · have hready : (s.port l).tx.isCredit = true := by rw [htx]; rfl
    exact ends (exec_creditFrameSent l s) hready (noted_refl _)
  · exact lg_receive_of_room hg f
  · exact lg_receive_of_full hg f
  · exact lg_take hg hlen
  · unfold Port.receive
    split <;> rfl

end Sys2Proof.Machine

namespace Sys2Proof.Machine

/-! ### A line that goes DOWN -/

/-- A removal version recorded with the case of a current handle (R89). -/
theorem noted_setRemoval {a : State} {x : Handle} {c : CaseRecord} (h : a.named x = some c) (v : Option Nat) :
    Noted (a.withCase x.slot { c with removalVersion := v }) (setRemoval x v a) := by
  simp only [setRemoval, h]
  exact noted_withCase (noted_refl a) x.slot _

theorem setRemoval_of_unnamed {a : State} {x : Handle} (h : a.named x = none) (v : Option Nat) :
    setRemoval x v a = a := by
  simp only [setRemoval, h]

/-- A cancelled ADD whose delta is cut becomes a REMOVE in its place (R90). -/
theorem noted_cutAdd {d : Delta} (h : d.kind = .add) (s : State) :
    Noted
      { s with
        listQueue :=
          if (s.listQueue.find? (fun e => e.handle = d.handle ∧ e.kind = .add)).any (·.cancelled) then
            s.listQueue.map (fun e => if e.handle = d.handle then ⟨d.handle, .remove, false⟩ else e)
          else s.listQueue }
      (cutDelta d s) := by
  simp only [cutDelta, h, State.entryOf]
  cases s.listQueue.find? (fun e => e.handle = d.handle ∧ e.kind = .add) with
  | none => exact noted_refl s
  | some e =>
    cases hc : e.cancelled with
    | false => simpa [hc] using noted_refl s
    | true => simpa [hc, ListOp.apply] using noted_doListOp (noted_refl s) (.replace ⟨d.handle, .remove, false⟩)

/-- What the cut of the delta in transmission leaves. -/
theorem noted_cutStationDelta (s : State) : Noted s.deltaCut (cutStationDelta s) := by
  unfold cutStationDelta State.deltaCut
  cases htx : s.station.tx with
  | delta d =>
    cases hk : d.kind with
    | remove =>
      simp only [cutDelta, hk]
      cases hn : s.named d.handle with
      | none =>
        rw [setRemoval_of_unnamed hn]
        exact noted_refl s
      | some c => exact noted_setRemoval hn none
    | add =>
      have h := noted_cutAdd hk s
      simpa only [hk] using h
  | idle | credit | forwarded | inserted | emission => exact noted_refl s

theorem cut_eq (t : Tx) : t.cut = if t.isCredit = true then t else .idle := by cases t <;> rfl

/-- What a line that goes DOWN leaves behind. -/
def State.lineLeft (l : Line) (s : State) : State :=
  match l with
  | .station => s.deltaCut
  | .centre => s

theorem noted_linkDown (l : Line) (s : State) :
    Noted ((s.lineLeft l).onPort l fun p => { p with linkUp := false, tx := if p.tx.isCredit = true then p.tx else .idle })
      (linkDown l s) := by
  simp only [← cut_eq]
  cases l with
  | station => exact noted_onPort (noted_cutStationDelta s) .station _
  | centre => exact noted_onPort (noted_refl s) .centre _

theorem onPort_onPort (s : State) (l : Line) (f g : Port → Port) :
    (s.onPort l f).onPort l g = s.onPort l (fun p => g (f p)) := by
  cases l <;> rfl

theorem exec_silenceTimeout (l : Line) (s : State) :
    exec (.silenceTimeout l) s = event (decide ((s.port l).silence < 200))
      (fun s => (linkDown l s).onPort l (fun p => { p with silence := 200 })) s := rfl

theorem exec_lossOfSignal (l : Line) (s : State) :
    exec (.lossOfSignal l) s = event (s.port l).linkUp (linkDown l) s := rfl

/-- Settles O5: the timer that runs out, and the signal that is lost, both cut what the line sends. -/
theorem lineDownCutsTransmission : Obligations.LineDownCutsTransmission := by
  unfold Obligations.LineDownCutsTransmission
  intro l s left
  have hleft : left = s.lineLeft l := by cases l <;> rfl
  clear_value left
  subst hleft
  have hdown := noted_linkDown l s
  refine ⟨fun h => ?_, fun h => ends (exec_lossOfSignal l s) h hdown⟩
  refine ends (exec_silenceTimeout l s) (decide_eq_true h) ?_
  have htimed := noted_onPort hdown l (fun p => { p with silence := 200 })
  rw [onPort_onPort] at htimed
  exact htimed

/-! ### Completions -/

theorem exec_forwardedRecordCompletes (l : Line) (s : State) :
    exec (.forwardedRecordCompletes l) s = event (s.port l).tx.isForwarded (forwardedCompletes l) s := rfl

theorem exec_insertedRecordCompletes (s : State) :
    exec .insertedRecordCompletes s = event s.centre.tx.isInserted
      (fun s => { s with centre := s.centre.insertedDone, insertQueue := s.insertQueue.tail }) s := rfl

/-- Settles O6. -/
theorem completedRecordLeavesItsQueue : Obligations.CompletedRecordLeavesItsQueue := by
  unfold Obligations.CompletedRecordLeavesItsQueue
  refine ⟨fun l f s htx => ?_, fun r s htx => ?_⟩
  · exact ends (exec_forwardedRecordCompletes l s) (by rw [htx]; rfl) (noted_refl _)
  · exact ends (exec_insertedRecordCompletes s) (by rw [htx]; rfl) (noted_refl _)

/-! ### The Record Classifier -/

theorem exec_forwardStation {f : Frame} {s : State} (h : s.head .station = some f) :
    exec (.forwardUnchanged .station) s =
      event (forwardedAsIs s.mirror.straps .station f && s.upRoom) (takeUp f) s := by
  simp only [exec, execForwardUnchanged, h]

theorem exec_forwardCentre {f : Frame} {s : State} (h : s.head .centre = some f) :
    exec (.forwardUnchanged .centre) s =
      event (forwardedAsIs s.mirror.straps .centre f && s.downRoom) (takeDown f) s := by
  simp only [exec, execForwardUnchanged, h]

theorem exec_controlForPartner {f : Frame} {s : State} (h : s.head .centre = some f) :
    exec .controlForPartner s = event (routing s.mirror.straps f == .ignored) takeControl s := by
  simp only [exec, execControlForPartner, h]

/-- The oldest frame of a buffer is the one at its head (R8). -/
theorem head_of_rx {l : Line} {f : Frame} {rest : List Frame} {s : State} (ha : s.isActive = true)
    (h : (s.port l).rx = f :: rest) : s.head l = some f := by
  rw [State.head, if_pos ha, h]
  rfl

theorem takeUp_of_rx {f : Frame} {rest : List Frame} {s : State} (g : Frame) (h : s.station.rx = f :: rest) :
    takeUp g s = { s with station := { s.station with rx := rest }, upQueue := s.upQueue ++ [g] } := by
  rw [takeUp, Port.take, h]
  rfl

theorem takeDown_of_rx {f : Frame} {rest : List Frame} {s : State} (h : s.centre.rx = f :: rest) :
    takeDown f s = { s with centre := { s.centre with rx := rest }, downQueue := s.downQueue ++ [f] } := by
  rw [takeDown, Port.take, h]
  rfl

theorem fieldAt_first (b : Byte) (rest : List Byte) : fieldAt 0 1 (b :: rest) = b.toNat := by
  simp [fieldAt, beNat]

theorem fieldAt_second (a b : Byte) (rest : List Byte) : fieldAt 1 1 (a :: b :: rest) = b.toNat := by
  simp [fieldAt, beNat]

theorem memberTarget_partner (m : Fin 2) : memberTarget (1 - m) = 2 - m.val := by
  revert m
  decide

/-- Settles O7. -/
theorem classifierForwardsOrConsumes : Obligations.ClassifierForwardsOrConsumes := by
  unfold Obligations.ClassifierForwardsOrConsumes
  refine ⟨fun f rest s ha hrx hk hroom => ?_, fun f rest s ha hrx hr hk hroom => ?_, fun f rest s ha hrx hr => ?_,
    fun straps f hk => ?_, fun straps pair target rest flags trailer => ?_⟩
  · refine ends (exec_forwardStation (head_of_rx ha hrx)) ?_ ?_
    · simp only [List.mem_cons, List.not_mem_nil, or_false, not_or] at hk
      obtain ⟨huse, hload, hsale, hsweep, hlistack⟩ := hk
      simp [forwardedAsIs, isCardKind, State.upRoom, huse, hload, hsale, hsweep, hlistack, hroom]
    · rw [takeUp_of_rx f hrx]
      exact noted_refl _
  · refine ends (exec_forwardCentre (head_of_rx ha hrx)) ?_ ?_
    · simp [forwardedAsIs, State.downRoom, hr, hk, hroom]
    · rw [takeDown_of_rx hrx]
      exact noted_refl _
  · refine ends (exec_controlForPartner (head_of_rx ha hrx)) (by simp [hr]) ?_
    simp only [takeControl, Port.take, ha, if_true, hrx, List.tail_cons]
    exact noted_refl _
  · rw [routing, if_neg (fun h => hk h.1)]
  · rw [routing, fieldAt_first, fieldAt_second, memberTarget_partner]
    by_cases hp : pair.toNat = straps.number.val <;> simp [hp]

/-! ### The arbiters -/

/-- The conditions of R4 are those under which a port begins a record frame. -/
theorem mayBegin_of_maySend {p : Port} (h : p.maySend) : p.mayBegin true = true := by
  obtain ⟨hup, htx, lh, hlh, hlow, hhigh⟩ := h
  simp only [Port.mayBegin, hup, htx, hlh, beq_self_eq_true, Bool.and_true, decide_eq_true hlow, decide_eq_true hhigh]

/-- The first source that has a record waiting is chosen (R16). -/
theorem firstOffered_append {before after : List UpSource} {src : UpSource} {r : Tx} {s : State}
    (hnone : ∀ x ∈ before, s.offered x = none) (h : s.offered src = some r) :
    s.firstOffered (before ++ src :: after) = some (src, r) := by
  induction before with
  | nil => simp only [List.nil_append, State.firstOffered, h]
  | cons x rest ih =>
    simp only [List.cons_append, State.firstOffered, hnone x List.mem_cons_self]
    exact ih fun y hy => hnone y (List.mem_cons_of_mem _ hy)

theorem exec_upwardArbiterChoice {s : State} {src : UpSource} {r : Tx}
    (h : s.firstOffered s.upPointer.after = some (src, r)) :
    exec .upwardArbiterChoice s = event (s.centre.mayBegin s.isActive)
      (fun s => { s with centre := s.centre.beginFrame r, upPointer := src }) s := by
  simp only [exec, execUpwardArbiterChoice, h]

/-- Settles O8. -/
theorem upwardArbiterTakesNextSource : Obligations.UpwardArbiterTakesNextSource := by
  unfold Obligations.UpwardArbiterTakesNextSource
  intro before after src r s ha hsend hafter hnone hoffered
  have hfirst : s.firstOffered s.upPointer.after = some (src, r) := by
    rw [hafter]
    exact firstOffered_append hnone hoffered
  exact ends (exec_upwardArbiterChoice hfirst) (by rw [ha]; exact mayBegin_of_maySend hsend) (noted_refl _)

theorem beginDelta_add {e : ListEntry} {a : State} (h : e.kind = .add) (s : State) : beginDelta (formDelta e a) s = s := by
  simp only [beginDelta, formDelta, h]

theorem beginDelta_remove {e : ListEntry} {a : State} (h : e.kind = .remove) (s : State) :
    beginDelta (formDelta e a) s = setRemoval e.handle (some a.nextVersion) s := by
  simp only [beginDelta, formDelta, h]

theorem exec_downwardDelta {s : State} {e : ListEntry} {rest : List ListEntry} (h : s.deltaChosen = true)
    (hq : s.listQueue = e :: rest) :
    exec .downwardArbiterChoice s = event (s.station.mayBegin s.isActive)
      (fun s => beginDelta (formDelta e s)
        { s with station := s.station.beginFrame (.delta (formDelta e s)), deltaCount := min 4 (s.deltaCount + 1) }) s := by
  simp only [exec, execDownwardArbiterChoice, h, if_true, hq]

theorem exec_downwardRecord {s : State} {f : Frame} {rest : List Frame} (h : s.deltaChosen = false)
    (hq : s.downQueue = f :: rest) :
    exec .downwardArbiterChoice s = event (s.station.mayBegin s.isActive)
      (fun s => { s with station := s.station.beginFrame (.forwarded f), deltaCount := 0 }) s := by
  simp only [exec, execDownwardArbiterChoice, h, Bool.false_eq_true, if_false, hq]

/-- Settles O9. -/
theorem downwardArbiterChooses : Obligations.DownwardArbiterChooses := by
  unfold Obligations.DownwardArbiterChooses
  refine ⟨fun e rest s ha hsend hq hdrain hset hcount => ?_, fun f rest s ha hsend hq hcount => ?_⟩
  · obtain ⟨-, htx, -⟩ := id hsend
    have hchosen : s.deltaChosen = true := by
      simpa [State.deltaChosen, State.deltaWaiting, ha, hdrain, hq, htx, hset] using hcount
    refine ⟨_, (exec_downwardDelta hchosen hq).trans (event_next (by rw [ha]; exact mayBegin_of_maySend hsend)), ?_⟩
    extract_lets v _ sent
    have hnamed : sent.named e.handle = s.named e.handle := rfl
    cases hk : e.kind with
    | add => exact ended_finish (beginDelta_add hk sent ▸ noted_refl sent)
    | remove =>
      cases hn : s.named e.handle with
      | none =>
        have hsame : beginDelta (formDelta e s) sent = sent :=
          (beginDelta_remove hk sent).trans (setRemoval_of_unnamed (hnamed.trans hn) _)
        exact ended_finish (hsame.symm ▸ noted_refl sent : Noted sent (beginDelta (formDelta e s) sent))
      | some x =>
        refine ended_finish (e := sent.withCase e.handle.slot { x with removalVersion := some v }) ?_
        rw [beginDelta_remove hk]
        exact noted_setRemoval (hnamed.trans hn) _
  · obtain ⟨-, htx, -⟩ := id hsend
    have hchosen : s.deltaChosen = false := by
      rcases hcount with h | h | ⟨h1, h2⟩ | h
      · have hne : s.downQueue ≠ [] := by rw [hq]; nofun
        simp [State.deltaChosen, hne, Nat.not_lt.mpr h]
      · simp [State.deltaChosen, State.deltaWaiting, h]
      · simp [State.deltaChosen, State.deltaWaiting, h1, h2]
      · simp [State.deltaChosen, State.deltaWaiting, Option.isNone_eq_false_iff.mpr h]
    exact ends (exec_downwardRecord hchosen hq) (by rw [ha]; exact mayBegin_of_maySend hsend) (noted_refl _)

end Sys2Proof.Machine

/-! The Case Table (02_the_case_table.md): the lookup and the allocation of a slot, and the commands on cases. -/

namespace Sys2Proof.Machine

/-! ### The lookup and the allocation (R21, R22) -/

/-- The first of a rising list with a property is the least of its elements that have it. -/
theorem find?_iff_least {p : Nat → Bool} {xs : List Nat} (hxs : xs.Pairwise (· < ·)) (n : Nat) :
    xs.find? p = some n ↔ n ∈ xs ∧ p n = true ∧ ∀ m ∈ xs, m < n → p m = false := by
  induction xs with
  | nil => simp
  | cons x xs ih =>
    obtain ⟨hx, hxs⟩ := List.pairwise_cons.mp hxs
    cases hp : p x with
    | true =>
      rw [List.find?_cons_of_pos hp]
      refine ⟨fun h => ?_, fun ⟨hn, _, hleast⟩ => ?_⟩
      · obtain rfl := Option.some.inj h
        refine ⟨List.mem_cons_self, hp, fun m hm hlt => ?_⟩
        rcases List.mem_cons.mp hm with rfl | hm
        · exact absurd hlt (Nat.lt_irrefl _)
        · exact absurd (hx m hm) (Nat.lt_asymm hlt)
      · rcases List.mem_cons.mp hn with rfl | hn
        · rfl
        · rw [hleast x List.mem_cons_self (hx n hn)] at hp
          cases hp
    | false =>
      rw [List.find?_cons_of_neg (by simp [hp]), ih hxs]
      constructor
      · rintro ⟨hn, hpn, hleast⟩
        exact ⟨.tail _ hn, hpn, by simpa [hp] using hleast⟩
      · rintro ⟨hn, hpn, hleast⟩
        rcases List.mem_cons.mp hn with rfl | hn
        · rw [hp] at hpn
          cases hpn
        · exact ⟨hn, hpn, fun m hm => hleast m (.tail _ hm)⟩

theorem wayList_eq (card : Nat) :
    wayList (homeSet card) = [card % 512 * 4, card % 512 * 4 + 1, card % 512 * 4 + 2, card % 512 * 4 + 3] := rfl

theorem wayList_rises (set : Nat) : (wayList set).Pairwise (· < ·) := List.pairwise_lt_range' (s := set * 4) (n := 4)

theorem spillList_rises : spillList.Pairwise (· < ·) := List.pairwise_lt_range'

theorem isFree_eq_true {s : State} {n : Nat} : s.isFree n = true ↔ s.caseAt n = none := by simp [State.isFree]

theorem isFree_eq_false {s : State} {n : Nat} : s.isFree n = false ↔ s.caseAt n ≠ none := by
  simp [State.isFree, Option.isSome_iff_ne_none]

/-- What a new case takes: the least free way of its home set, or with none the least free Spill List slot (R22). -/
theorem allocate_iff (card n : Nat) (s : State) :
    allocate card s = some n ↔
      (n ∈ wayList (homeSet card) ∧ s.caseAt n = none ∧ ∀ m ∈ wayList (homeSet card), m < n → s.caseAt m ≠ none) ∨
      ((∀ m ∈ wayList (homeSet card), s.caseAt m ≠ none) ∧ n ∈ spillList ∧ s.caseAt n = none ∧
        ∀ m ∈ spillList, m < n → s.caseAt m ≠ none) := by
  have hway (k : Nat) := find?_iff_least (p := s.isFree) (wayList_rises (homeSet card)) k
  have hspill := find?_iff_least (p := s.isFree) spillList_rises n
  simp only [isFree_eq_true, isFree_eq_false] at hway hspill
  unfold allocate
  cases hfind : (wayList (homeSet card)).find? s.isFree with
  | some k =>
    obtain ⟨hk, hfree, hleast⟩ := (hway k).mp hfind
    rw [← hway n, hfind]
    refine ⟨.inl, fun h => h.elim id fun hnone => absurd hfree (hnone.1 k hk)⟩
  | none =>
    have hnone : ∀ m ∈ wayList (homeSet card), s.caseAt m ≠ none := fun m hm =>
      isFree_eq_false.mp (by simpa using List.find?_eq_none.mp hfind m hm)
    refine ⟨fun h => .inr ⟨hnone, hspill.mp h⟩, ?_⟩
    rintro (⟨hn, hfree, -⟩ | ⟨-, h⟩)
    · exact absurd hfree (hnone n hn)
    · exact hspill.mpr h

theorem allocate_eq_none (card : Nat) (s : State) :
    allocate card s = none ↔
      (∀ m ∈ wayList (homeSet card), s.caseAt m ≠ none) ∧ ∀ m ∈ spillList, s.caseAt m ≠ none := by
  unfold allocate
  cases hfind : (wayList (homeSet card)).find? s.isFree with
  | some k =>
    have hk := List.mem_of_find?_eq_some hfind
    have hfree := isFree_eq_true.mp (List.find?_some hfind)
    simp only [reduceCtorEq, false_iff, not_and]
    exact fun h => absurd hfree (h k hk)
  | none =>
    simp only [List.find?_eq_none, Bool.not_eq_true, isFree_eq_false] at hfind ⊢
    exact (and_iff_right hfind).symm

/-- Settles O12: the first free slot of a rising list is its least free slot. -/
theorem lookupAndAllocation : Obligations.LookupAndAllocation := by
  unfold Obligations.LookupAndAllocation
  have hmem (n : Nat) : n ∈ spillList ↔ 2048 ≤ n ∧ n ≤ 2111 := mem_spillList.trans
    (and_congr_right fun _ => Nat.lt_succ_iff)
  refine ⟨fun card s hs n => lookup_iff hs card n, fun card s => ⟨fun n => ?_, ?_⟩⟩
  · rw [allocate_iff, wayList_eq]
    simp only [hmem, and_assoc, and_imp]
    refine or_congr_right (and_congr_right fun _ => and_congr_right fun _ => and_congr_right fun hn =>
      and_congr_right fun _ => ?_)
    exact ⟨fun h m hm hlt => h m hm (by omega) hlt, fun h m hm _ hlt => h m hm hlt⟩
  · rw [allocate_eq_none, wayList_eq]
    simp only [hmem, and_imp]

/-! ### OPEN CASE (R28, R29) -/

/-- With no slot twice among the sub-records, the last written of a slot is the first of it. -/
theorem look_openContracts (seq : Count16) {cs : List OpenContract} (h : (cs.map (·.slot)).Nodup) (slot : Nat) :
    SMap.look (openContracts seq cs) slot =
      (cs.find? (fun k => k.slot = slot)).map
        (fun k => ⟨k.product, k.price, k.validFrom, k.validTo, k.trips, seq⟩) := by
  unfold openContracts
  induction cs using List.reverseRecOn with
  | nil => rfl
  | append_singleton rest k ih =>
    rw [List.map_append, List.nodup_append] at h
    obtain ⟨hrest, -, hdisjoint⟩ := h
    rw [List.foldl_concat, List.find?_append]
    by_cases hk : slot = k.slot
    · have hnone : rest.find? (fun x => x.slot = k.slot) = none := by
        rw [List.find?_eq_none]
        intro x hx
        simpa using hdisjoint x.slot (List.mem_map_of_mem hx) k.slot (by simp)
      subst hk
      rw [look_put_same, hnone]
      simp
    · rw [look_put_other _ _ hk, ih hrest]
      simp [Ne.symm hk]

theorem nodup_of_valid {p : OpenParams} (h : p.valid = true) : (p.contracts.map (·.slot)).Nodup := by
  unfold OpenParams.valid at h
  simp only [Bool.and_eq_true, decide_eq_true_eq] at h
  exact h.2

theorem filter_valid {p : OpenParams} {o : Option OpenParams} (h : o = some p) (hv : p.valid = true) :
    o.filter (·.valid) = some p := by
  rw [h, Option.filter_some, if_pos hv]

/-- OPEN CASE once its conditions 2 and 3 are met. -/
theorem openCase_of_valid {c : Control} {p : OpenParams} {s : State} (hclock : s.clock.isSet = true)
    (hread : readOpen c.params = some p) (hv : p.valid = true) :
    openCase c s.taken =
      if s.clock.time + s.policy.futureSlack < p.tr then refuse .futureTime s.taken
      else if (lookup p.card s).isSome then refuse .duplicateCase s.taken
      else if max32 ≤ s.injector.counter then refuse .listExhausted s.taken
      else
        (allocate p.card s).elim
          (refuse .tableFull (countNotice .tableFullSeen (.homeSet (homeSet p.card)) s.taken))
          (fun n => accept (openAt n p s.taken) (.opened (s.handleAt n))) := by
  have hset : s.taken.clock.isSet = true := hclock
  have halloc : allocate p.card s.taken = allocate p.card s := rfl
  simp only [openCase, hset, filter_valid hread hv, halloc]
  cases allocate p.card s <;> rfl

/-- Settles O10: the slot that `allocate` gives is filled with the new case. -/
theorem openCaseFillsSlot : Obligations.OpenCaseFillsSlot := by
  unfold Obligations.OpenCaseFillsSlot
  intro c p n s hin hclock hread hv hfuture hlook hcounter halloc
  have hown : openCase c s.taken = accept (openAt n p s.taken) (.opened (s.handleAt n)) := by
    rw [openCase_of_valid hclock hread hv, if_neg (Nat.not_lt.mpr hfuture), if_neg (by simp [hlook]),
      if_neg (Nat.not_le.mpr hcounter), halloc]
    rfl
  have hnoted := noted_doListOp (noted_fillSlot (noted_refl s.taken) n { s.slotAt n with case := some (newCase p) })
    (.append ⟨s.handleAt n, .add, false⟩)
  obtain ⟨t, ht, hanswered⟩ := accepted_of_own hin (by decide) hown hnoted rfl
  exact ⟨openContracts p.knownSeq p.contracts, t, look_openContracts _ (nodup_of_valid hv), ht, hanswered⟩

/-- Settles O11: each condition is reached with those before it met. -/
theorem openCaseIsRefusedInOrder : Obligations.OpenCaseIsRefusedInOrder := by
  unfold Obligations.OpenCaseIsRefusedInOrder
  intro c s hin refused
  have hrefused {why : Reason} (h : openCase c s.taken = refuse why s.taken) : refused why :=
    refused_of_own hin (by decide) h
  refine ⟨fun hclock => hrefused ?_, fun hclock hbad => hrefused ?_, fun p hclock hread hv => ?_⟩
  · simp only [openCase, show s.taken.clock.isSet = false from hclock]
    rfl
  · simp only [openCase, show s.taken.clock.isSet = true from hclock, hbad]
    rfl
  · have hown := openCase_of_valid hclock hread hv
    refine ⟨fun hfuture => hrefused (hown.trans (if_pos hfuture)), fun hfuture => ?_⟩
    rw [if_neg (Nat.not_lt.mpr hfuture)] at hown
    refine ⟨fun hdup => hrefused (hown.trans (if_pos hdup)), fun hlook => ?_⟩
    rw [if_neg (by simp [hlook])] at hown
    refine ⟨fun hfull => hrefused (hown.trans (if_pos hfull)), fun hcounter halloc => ?_⟩
    rw [if_neg (Nat.not_le.mpr hcounter), halloc] at hown
    have hrole : s.mirror.role = .active := inHand_role hin
    exact answers_taken hin (by decide) rfl nofun hown
      (noted_countNotice (noted_refl s.taken) .tableFullSeen (.homeSet (homeSet p.card))) hrole

end Sys2Proof.Machine

namespace Sys2Proof.Machine

/-! ### The handle of a command (R23) -/

theorem withHandle_of_beyond {h : Handle} (act : CaseRecord → Executed) (s : State) (hb : 2111 < h.slot) :
    withHandle h act s = refuse .badField s := if_pos hb

theorem withHandle_of_stale {h : Handle} (act : CaseRecord → Executed) {s : State} (hb : h.slot ≤ 2111)
    (hn : s.named h = none) : withHandle h act s = refuse .staleHandle s := by
  rw [withHandle, if_neg (show ¬slotLimit ≤ h.slot from Nat.not_le.mpr (Nat.lt_succ_of_le hb)), hn]

/-- What a command leaves that checks its handle first, where the check fails. -/
theorem handle_refused {code : Byte} {own : Control → State → Executed} {h : Handle} {c : Control} {s : State}
    {act : CaseRecord → Executed} (hin : s.inHand code c) (hcode : code ≠ codeProductData)
    (hown : own c s.taken = withHandle h act s.taken) :
    (2111 < h.slot →
      ∃ t, runCommand code .activeOnly false own s = .next t ∧ s.taken.answered c (.reject .badField) t) ∧
    (h.slot ≤ 2111 → s.named h = none →
      ∃ t, runCommand code .activeOnly false own s = .next t ∧ s.taken.answered c (.reject .staleHandle) t) :=
  ⟨fun hb => refused_of_own hin hcode (hown.trans (withHandle_of_beyond act _ hb)),
    fun hb hn => refused_of_own hin hcode (hown.trans (withHandle_of_stale act (s := s.taken) hb hn))⟩

theorem readCaseName_handle {bs : List Byte} (h : bs.length = 3) :
    readCaseName (some (0 :: bs)) = some (.byHandle (readHandle bs)) := by
  simp [readCaseName, h]

/-- Settles O13: each of the commands begins with the check of its handle. -/
theorem handlesAreChecked : Obligations.HandlesAreChecked := by
  unfold Obligations.HandlesAreChecked
  refine ⟨fun i code bs s c hi hin hp => ?_, fun bs c s hin hp hl => ?_⟩
  · rcases hi with ⟨rfl, rfl, hl⟩ | ⟨rfl, rfl, hl⟩ | ⟨rfl, rfl, hl⟩ | ⟨rfl, rfl, hl⟩ | ⟨rfl, rfl, hl⟩
    · exact handle_refused hin (by decide) (by rw [cancelCase, hp, ofLength_some hl])
    · exact handle_refused hin (by decide) (by rw [acceptCase, hp, ofLength_some hl])
    · exact handle_refused hin (by decide) (by rw [bindCase, hp, ofLength_some hl])
    · exact handle_refused hin (by decide) (by rw [forceProgress, hp, ofLength_some hl])
    · exact handle_refused hin (by decide) (by rw [closeCase, hp, ofLength_some hl])
  · exact handle_refused hin (by decide) (by rw [readCase, hp, readCaseName_handle hl])

/-! ### CANCEL CASE (R30, R31) -/

section
variable {c : Control} {bs : List Byte} {x : CaseRecord} {s : State}

theorem cancelCase_opening (hp : c.params = some bs) (hl : bs.length = 3) (hn : s.named (readHandle bs) = some x)
    (hphase : x.phase = .opening) : cancelCase c s = cancelOpening (readHandle bs) x s := by
  simp only [cancelCase, hp, ofLength_some hl, withHandle_of_named _ hn, hphase]

theorem cancelCase_listed (hp : c.params = some bs) (hl : bs.length = 3) (hn : s.named (readHandle bs) = some x)
    (hphase : x.phase ∈ [.listed, .anchored, .held, .stalled .listed]) :
    cancelCase c s = accept (voidListed (readHandle bs) x s) (.cancelled (readHandle bs) (some .voiding)) := by
  simp only [cancelCase, hp, ofLength_some hl, withHandle_of_named _ hn]
  simp only [List.mem_cons, List.not_mem_nil, or_false] at hphase
  rcases hphase with h | h | h | h <;> rw [h]

theorem cancelCase_late (hp : c.params = some bs) (hl : bs.length = 3) (hn : s.named (readHandle bs) = some x)
    (hphase : x.phase ∈ [.bound, .settled, .stalled .bound, .voiding]) :
    cancelCase c s = refuse .wrongPhase s := by
  simp only [cancelCase, hp, ofLength_some hl, withHandle_of_named _ hn]
  simp only [List.mem_cons, List.not_mem_nil, or_false] at hphase
  rcases hphase with h | h | h | h <;> rw [h]

end

/-- What a listed case's CANCEL CASE leaves. -/
theorem noted_voidListed (h : Handle) (x : CaseRecord) (s : State) :
    Noted
      (State.released h .offer
        { s.withCase h.slot { x with phase := .voiding } with listQueue := s.listQueue ++ [⟨h, .remove, false⟩] })
      (voidListed h x s) :=
  noted_removeEmission
    (noted_doListOp (noted_withCase (noted_refl s) h.slot { x with phase := .voiding }) (.append ⟨h, .remove, false⟩)) _ _

/-- Settles O14: one outcome for each phase, and in OPENING one for an ADD in transmission and one for another. -/
theorem cancelCaseByPhase : Obligations.CancelCaseByPhase := by
  unfold Obligations.CancelCaseByPhase
  rintro bs h x c s hin hp hl rfl hn
  have hvoid (hphase : x.phase ∈ [.listed, .anchored, .held, .stalled .listed]) :=
    accepted_of_own hin (by decide) (cancelCase_listed (s := s.taken) hp hl hn hphase)
      (noted_voidListed (readHandle bs) x s.taken) rfl
  have hwrong (hphase : x.phase ∈ [.bound, .settled, .stalled .bound, .voiding]) :=
    refused_of_own hin (by decide) (cancelCase_late (s := s.taken) hp hl hn hphase)
  cases hphase : x.phase with
  | opening =>
    have hown := cancelCase_opening (s := s.taken) hp hl hn hphase
    refine next_ite (fun hsend => ?_) fun hsend => ?_
    · exact accepted_of_own hin (by decide) (hown.trans (if_pos hsend))
        (noted_doListOp (noted_withCase (noted_refl s.taken) _ _) (.setMark ⟨readHandle bs, .add, true⟩)) rfl
    · exact accepted_of_own hin (by decide) (hown.trans (if_neg hsend))
        (noted_freeSlot (noted_doListOp (noted_refl s.taken) (.withdraw ⟨readHandle bs, .add, false⟩)) _) rfl
  | listed | anchored | held => exact hvoid (by simp [hphase])
  | bound | settled | voiding => exact hwrong (by simp [hphase])
  | stalled p =>
    cases p with
    | listed => exact hvoid (by simp [hphase])
    | bound => exact hwrong (by simp [hphase])

/-! ### READ CASE (R36) -/

/-- Two answers placed at once, where the Insert Queue has two places (R36, R136). -/
theorem placing_two_at_once {s : State} {a b : Answer} (h : s.placesAtOnce = true) (hlen : s.insertQueue.length < 63)
    (ha : ∀ r, a ≠ .completion r) (hb : ∀ r, b ≠ .completion r) :
    (s.withAnswers [a, b]).placing = { s with insertQueue := s.insertQueue ++ [.answer a, .answer b] } := by
  simp only [State.placesAtOnce, Bool.and_eq_true, List.isEmpty_iff] at h
  obtain ⟨⟨hw, -⟩, -⟩ := h
  have hroom : 64 - s.insertQueue.length = (64 - (s.insertQueue.length + 2)) + 1 + 1 := by omega
  unfold State.placing State.withAnswers
  simp only [hw, List.nil_append, hroom, List.take_succ_cons, List.take_nil, List.drop_succ_cons, List.drop_nil,
    List.any_cons, List.any_nil, Bool.or_false, List.map_cons, List.map_nil]
  cases a with
  | completion r => exact absurd rfl (ha r)
  | summary | response =>
    cases b with
    | completion r => exact absurd rfl (hb r)
    | summary | response => simp only [Bool.false_eq_true, if_false]; rw [← hw]

/-- The case in a slot is named by the slot's handle. -/
theorem named_handleAt {s : State} {n : Nat} (h : n ≤ 2111) : s.named (s.handleAt n) = s.caseAt n :=
  if_pos ⟨Nat.lt_succ_of_le h, rfl⟩

theorem readCase_byHandle {c : Control} {n : Nat} {x : CaseRecord} {s : State} (hn : n ≤ 2111)
    (hc : s.caseAt n = some x) (h : readCaseName c.params = some (.byHandle (s.handleAt n))) :
    readCase c s = foundCase (s.handleAt n) x s := by
  simp only [readCase, h]
  exact withHandle_of_named _ ((named_handleAt hn).trans hc)

theorem readCase_byCard {c : Control} {card n : Nat} {x : CaseRecord} {s : State} (h0 : card ≠ 0)
    (hl : lookup card s = some n) (hc : s.caseAt n = some x) (h : readCaseName c.params = some (.byCard card)) :
    readCase c s = foundCase (s.handleAt n) x s := by
  simp only [readCase, h, if_neg h0, hl, hc]

/-- What a READ CASE leaves that finds its case. -/
theorem found_of_own {c : Control} {h : Handle} {x : CaseRecord} {s : State} (hin : s.inHand 0x07 c)
    (hown : readCase c s.taken = foundCase h x s.taken) :
    ∃ t, exec .readCase s = .next t ∧
      s.taken.answeredWith [.summary (summaryOf h x s), s.response c (.reply (.caseFound h x.phase))] t := by
  have hrole : s.mirror.role = .active := inHand_role hin
  refine ⟨_, ?_, answeredWith_respond (e := s.taken) (e' := s.taken) (sum := some (summaryOf h x s)) hrole (noted_refl _)⟩
  obtain ⟨hcontrol, hfault, hcode, htarget, htakes, hactive⟩ := hin
  have hready : s.commandReady 0x07 c = true := by simp [State.commandReady, hfault, hcode, htakes]
  have hcommon : commonFault .activeOnly false c s.taken = none := by
    rw [commonFault, if_neg (by omega), show s.taken.isActive = true from hactive]
    rfl
  show runCommand 0x07 .activeOnly false readCase s = _
  simp only [runCommand, hcontrol]
  rw [event_next hready, show ((0x07 : Byte) != codeProductData) = true from rfl, taken_eq hactive, executed, hcommon, hown]
  rfl

/-- Settles O15: a case found is answered by its SUMMARY and its REPLY, and the state is as before but for these. -/
theorem readCaseAnswersSummary : Obligations.ReadCaseAnswersSummary := by
  unfold Obligations.ReadCaseAnswersSummary
  intro c name s hin hname
  refine ⟨fun n x hfound hc => ?_, fun card hcard h0 hl => ?_, fun hcard => ?_⟩
  · extract_lets summary reply
    have hown : readCase c s.taken = foundCase (s.handleAt n) x s.taken := by
      rcases hfound with ⟨rfl, hn⟩ | ⟨card, rfl, h0, hl⟩
      · exact readCase_byHandle (s := s.taken) hn hc hname
      · exact readCase_byCard (s := s.taken) h0 hl hc hname
    obtain ⟨t, ht, hanswered⟩ := found_of_own hin hown
    refine ⟨t, ht, hanswered.1, hanswered, fun hcalm hplaces hlen => ?_⟩
    obtain ⟨-, -, -, -, -, -, -, hbusy⟩ := hanswered
    have hended : s.cu.busy.all (fun b => b.begun || b.ended) = true := by
      simp only [State.placesAtOnce, Bool.and_eq_true] at hplaces
      exact hplaces.2
    rw [(hbusy hended).2 hcalm]
    exact congrArg State.begun (placing_two_at_once (s := s.taken) hplaces hlen nofun nofun)
  · refine accepted_of_own hin (by decide) ?_ (noted_refl s.taken) rfl
    simp only [readCase, hname, hcard, if_neg h0, show lookup card s.taken = none from hl]
  · refine refused_of_own hin (by decide) ?_
    simp only [readCase, hname, hcard, if_pos]

end Sys2Proof.Machine

/-! Attribution (03_attributing_records_to_cases.md): the event that takes a USE, LOAD or SALE record, and what
`measured` decides of one against its case. -/

namespace Sys2Proof.Machine

/-! ### The event (R38) -/

theorem isCardKind_of_mem {k : Byte} (h : k ∈ [kindUse, kindLoad, kindSale]) : isCardKind k = true := by
  simp only [List.mem_cons, List.not_mem_nil, or_false] at h
  rcases h with rfl | rfl | rfl <;> rfl

/-- The frame at the head of the Station buffer has gone into the Upward Forward Queue as `g`. -/
theorem noted_takeUp {a b : State} (h : Noted a b) {p : Port} {q : List Frame} {f : Frame} {rest : List Frame} (g : Frame)
    (hp : a.station = p) (hq : a.upQueue = q) (hrx : p.rx = f :: rest) :
    Noted { a with station := { p with rx := rest }, upQueue := q ++ [g] } (takeUp g b) := by
  subst hp hq
  have hb : b.station.rx = f :: rest := by rw [h.1]; exact hrx
  rw [takeUp_of_rx g hb]
  exact ⟨by dsimp only; conv_lhs => rw [h.1], h.2⟩

section
variable {f : Frame} {rest : List Frame} {s : State}

/-- What ATTRIBUTE RECORD leaves in ATTRIBUTE mode. -/
theorem attributes (hactive : s.isActive = true) (hrx : s.station.rx = f :: rest)
    (hkind : f.kind ∈ [kindUse, kindLoad, kindSale]) (hroom : s.upQueue.length < 256) (hmode : s.mode = .attributing) :
    exec .attributeRecord s = .next (finish (takeUp (attributeFrame f s).2 (attributeFrame f s).1)) := by
  have hready : (isCardKind f.kind && s.upRoom) = true := by
    rw [isCardKind_of_mem hkind]
    exact decide_eq_true hroom
  simp only [exec, execAttributeRecord, head_of_rx (l := .station) hactive hrx]
  rw [event_next hready, hmode]

/-- What ATTRIBUTE RECORD leaves in BYPASS mode. -/
theorem bypasses (hactive : s.isActive = true) (hrx : s.station.rx = f :: rest)
    (hkind : f.kind ∈ [kindUse, kindLoad, kindSale]) (hroom : s.upQueue.length < 256) (hmode : s.mode = .bypass) :
    exec .attributeRecord s = .next (finish (takeUp f (bypassFrame f s))) := by
  have hready : (isCardKind f.kind && s.upRoom) = true := by
    rw [isCardKind_of_mem hkind]
    exact decide_eq_true hroom
  simp only [exec, execAttributeRecord, head_of_rx (l := .station) hactive hrx]
  rw [event_next hready, hmode]

end

/-! ### The feed check (R41, R42) -/

theorem breaches_iff {f : Feed} {r : CardRecord} : breaches f r = true ↔ f.active = true ∧ r.time ≤ f.sweep := by
  simp [breaches]

theorem noted_feedCheck (r : CardRecord) (s : State) : Noted (s.feedChecked r) (feedCheck r s) := by
  unfold feedCheck State.feedChecked
  dsimp only
  by_cases hactive : (s.feedAt r.feed).active = false
  · rw [if_pos hactive, if_pos hactive]
    exact noted_countNotice (noted_setFeed (noted_refl s) r.feed _) .unadmittedFeed (.feed r.feed)
  · rw [if_neg hactive, if_neg hactive]
    by_cases hsweep : r.time ≤ (s.feedAt r.feed).sweep
    · rw [if_pos hsweep, if_pos (breaches_iff.mpr ⟨by simpa using hactive, hsweep⟩)]
      exact noted_countNotice (noted_setFeed (noted_refl s) r.feed _) .feedBreach (.feed r.feed)
    · rw [if_neg hsweep, if_neg fun h => hsweep (breaches_iff.mp h).2]
      exact noted_refl s

/-- The feed check changes the feeds and the notices alone. -/
theorem feedChecked_keeps (r : CardRecord) (s : State) :
    ((s.feedChecked r).slots = s.slots ∧ (s.feedChecked r).spill = s.spill) ∧
      (s.feedChecked r).station = s.station ∧ (s.feedChecked r).upQueue = s.upQueue := by
  unfold State.feedChecked
  dsimp only
  split_ifs <;> exact ⟨⟨rfl, rfl⟩, rfl, rfl⟩

theorem feedCheck_keeps (r : CardRecord) (s : State) :
    (feedCheck r s).slots = s.slots ∧ (feedCheck r s).spill = s.spill := by
  rw [(noted_feedCheck r s).1]
  exact (feedChecked_keeps r s).1

theorem caseAt_congr {s t : State} (h : t.slots = s.slots) : t.caseAt = s.caseAt := by
  funext n
  simp only [State.caseAt, State.slotAt, h]

theorem handleAt_congr {s t : State} (h : t.slots = s.slots) : t.handleAt = s.handleAt := by
  funext n
  simp only [State.handleAt, State.slotAt, h]

/-- The lookup reads the slots and the spill counts alone. -/
theorem lookup_congr {s t : State} (hslots : t.slots = s.slots) (hspill : t.spill = s.spill) (card : Nat) :
    lookup card t = lookup card s := by
  have hholds : t.holdsCard card = s.holdsCard card := by
    funext n
    simp only [State.holdsCard, caseAt_congr hslots]
  unfold lookup State.spillAt
  rw [hholds, hspill]

/-! ### Records that reach no case (R38, R39, R61) -/

theorem attributeFrame_malformed {f : Frame} (h : (CardRecord.ofFrame f).filter (·.valid) = none) (s : State) :
    attributeFrame f s = (s, f.withTrailer (trailerBytes none (some .malformed) false false)) := by
  simp only [attributeFrame, h]

theorem ofFrame_filter {f : Frame} {r : CardRecord} (h : CardRecord.ofFrame f = some r) (hv : r.valid = true) :
    (CardRecord.ofFrame f).filter (·.valid) = some r := by
  rw [h, Option.filter_some, if_pos hv]

theorem attributeFrame_unmatched {f : Frame} {r : CardRecord} {s : State} (h : CardRecord.ofFrame f = some r)
    (hv : r.valid = true) (hl : lookup r.card s = none) :
    attributeFrame f s =
      (feedCheck r s,
       if breaches (s.feedAt r.feed) r then f.withTrailer (trailerBytes none none false true) else f) := by
  have hl' : lookup r.card (feedCheck r s) = none :=
    (lookup_congr (feedCheck_keeps r s).1 (feedCheck_keeps r s).2 _).trans hl
  simp only [attributeFrame, ofFrame_filter h hv, hl']

theorem bypassFrame_unmatched {f : Frame} {s : State} (h : f.body.length < 6 ∨ lookup (fieldAt 0 6 f.body) s = none) :
    bypassFrame f s = s := by
  unfold bypassFrame
  rcases h with h | h
  · rw [if_pos h]
  · simp only [h, ite_self]

theorem bypassFrame_matched {f : Frame} {n : Nat} {c : CaseRecord} {s : State} (hb : 6 ≤ f.body.length)
    (hl : lookup (fieldAt 0 6 f.body) s = some n) (hc : s.caseAt n = some c) :
    bypassFrame f s = s.setCase n { c with flags := { c.flags with bypassed := true } } := by
  simp only [bypassFrame, if_neg (Nat.not_lt.mpr hb), hl, hc]

/-- Settles O16: the two modes, each with what the card of the record meets. -/
theorem unattributedRecordGoesOn : Obligations.UnattributedRecordGoesOn := by
  unfold Obligations.UnattributedRecordGoesOn
  intro f rest s hactive hrx hkind hroom sent
  refine ⟨fun hmode => ?_, fun hmode => ?_⟩
  · have hexec := attributes hactive hrx hkind hroom hmode
    refine ⟨fun hbad => ?_, fun r hr hv hl => ?_⟩
    · rw [attributeFrame_malformed hbad] at hexec
      exact ⟨_, hexec, ended_finish (noted_takeUp (noted_refl s) _ rfl rfl hrx)⟩
    · rw [attributeFrame_unmatched hr hv hl] at hexec
      obtain ⟨-, hstation, hqueue⟩ := feedChecked_keeps r s
      have hended := ended_finish (noted_takeUp (noted_feedCheck r s)
        (if breaches (s.feedAt r.feed) r then f.withTrailer (trailerBytes none none false true) else f)
        hstation hqueue hrx)
      refine ⟨_, hexec, ?_⟩
      simp only [breaches_iff] at hended ⊢
      exact hended
  · have hexec := bypasses hactive hrx hkind hroom hmode
    refine ⟨fun hnone => ?_, fun n c hb hl hc => ?_⟩
    · rw [bypassFrame_unmatched hnone] at hexec
      exact ⟨_, hexec, ended_finish (noted_takeUp (noted_refl s) _ rfl rfl hrx)⟩
    · rw [bypassFrame_matched hb hl hc] at hexec
      exact ⟨_, hexec, ended_finish (noted_takeUp (noted_withCase (noted_refl s) n _) _ rfl rfl hrx)⟩

/-! ### Records that reach their case (R38, R40) -/

theorem attributeFrame_matched {f : Frame} {r : CardRecord} {n : Nat} {c : CaseRecord} {s : State}
    (h : CardRecord.ofFrame f = some r) (hv : r.valid = true) (hl : lookup r.card s = some n)
    (hc : s.caseAt n = some c) :
    let a := measured s.policy.owned s.injector (s.feedAt r.feed) r c
    attributeFrame f s =
      (applyAttributed n c a (feedCheck r s),
       f.withTrailer
        (trailerBytes (some (s.handleAt n)) (some a.cls) a.stale (breaches (s.feedAt r.feed) r))) := by
  obtain ⟨hslots, hspill⟩ := feedCheck_keeps r s
  have hl' : lookup r.card (feedCheck r s) = some n := (lookup_congr hslots hspill _).trans hl
  have hc' : (feedCheck r s).caseAt n = some c := by rw [caseAt_congr hslots, hc]
  simp only [attributeFrame, ofFrame_filter h hv, hl', hc', handleAt_congr hslots]

/-- The notices of an attributed record's case (R49, R54). -/
def State.attributedNotices (h : Handle) (x : Attributed) (s : State) : Notices :=
  let n1 := if x.lateRecord then s.notices.counted .lateRecord (.handle h) else s.notices
  if x.blockedUse then n1.counted .blockedUse (.handle h) else n1

/-- The case of slot `n` has taken what was decided of a record (R38). -/
def State.withAttributed (n : Nat) (c : CaseRecord) (x : Attributed) (s : State) : State :=
  let h := s.handleAt n
  let s2 : State := { s.withCase n x.case with notices := s.attributedNotices h x }
  if c.phase = .anchored ∧ x.case.phase = .held then
    { s2.released h .offer with notices := (s.attributedNotices h x).counted .caseHeld (.handle h) }
  else s2

theorem noted_applyAttributed {a b : State} (h : Noted a b) (n : Nat) (c : CaseRecord) (x : Attributed) :
    Noted (a.withAttributed n c x) (applyAttributed n c x b) := by
  have hh : b.handleAt n = a.handleAt n := by rw [h.1]; rfl
  have hcounted := noted_countIf (noted_countIf (noted_withCase h n x.case) x.lateRecord .lateRecord
    (.handle (a.handleAt n))) x.blockedUse .blockedUse (.handle (a.handleAt n))
  unfold applyAttributed State.withAttributed
  dsimp only
  rw [hh]
  split
  · exact noted_countNotice (noted_removeEmission hcounted (a.handleAt n) .offer) .caseHeld (.handle (a.handleAt n))
  · exact hcounted

theorem withAttributed_keeps (n : Nat) (c : CaseRecord) (x : Attributed) (s : State) :
    (s.withAttributed n c x).station = s.station ∧ (s.withAttributed n c x).upQueue = s.upQueue := by
  unfold State.withAttributed
  dsimp only
  split <;> exact ⟨rfl, rfl⟩

theorem trailerBytes_attributed (h : Handle) (cls : RecordClass) (stale : Bool) (fd : Feed) (r : CardRecord) :
    trailerBytes (some h) (some cls) stale (breaches fd r) =
      [3 ||| (if stale then 4 else 0) ||| (if fd.active = true ∧ r.time ≤ fd.sweep then 8 else 0),
        BitVec.ofNat 8 (h.slot / 256), BitVec.ofNat 8 h.slot, h.use, cls.code] := by
  have hmarks : (1 : Byte) ||| 2 = 3 := by decide
  simp only [trailerBytes, breaches_iff, Option.isSome_some, if_true, hmarks, Option.map_some, Option.getD_some]

/-- Settles O17: the feed check, then the case and its notices, then the frame. -/
theorem attributedRecordReachesItsCase : Obligations.AttributedRecordReachesItsCase := by
  unfold Obligations.AttributedRecordReachesItsCase
  intro f rest r n c s hactive hmode hrx hkind hroom hr hv hl hc
  have hexec := attributes hactive hrx hkind hroom hmode
  rw [attributeFrame_matched hr hv hl hc, trailerBytes_attributed] at hexec
  refine ⟨_, hexec, ?_⟩
  obtain ⟨⟨hslots, -⟩, hstation, hqueue⟩ := feedChecked_keeps r s
  intro fd a h s1 n1 n2 s2 s3 marks
  have hs3 : s3 = s1.withAttributed n c a := by
    have hh : h = s1.handleAt n := by rw [handleAt_congr hslots]
    simp only [s3, s2, n2, n1, hh]
    rfl
  rw [hs3]
  obtain ⟨hstation', hqueue'⟩ := withAttributed_keeps n c a s1
  exact ended_finish (noted_takeUp (noted_applyAttributed (noted_feedCheck r s) n c a) _
    (hstation'.trans hstation) (hqueue'.trans hqueue) hrx)

end Sys2Proof.Machine

namespace Sys2Proof.Machine

/-! ### The place of a record (R44) -/

/-- A record has a place in the window: a free one of its 32, or one that the window slides to (R44). -/
def Window.Places (w : Window) (q : Count16) : Prop :=
  (w.distance q < 32 ∧ w.at (w.distance q) = none) ∨ (32 ≤ w.distance q ∧ w.distance q ≤ 32767)

/-- The window in which a record is placed: slid for one ahead of it (R45). -/
def Window.roomFor (w : Window) (q : Count16) : Window := if w.distance q < 32 then w else w.slide q

/-- The place that the record takes in it. -/
def Window.placeOf (w : Window) (q : Count16) : Nat := if w.distance q < 32 then w.distance q else 31

section
variable {owned : BitVec 5} {inj : Injector} {fd : Feed} {r : CardRecord} {c : CaseRecord}

theorem measured_duplicate (hd : c.window.distance r.seq < 32) (hs : (c.window.at (c.window.distance r.seq)).isSome = true) :
    measured owned inj fd r c = attributeDuplicate c := by
  simp only [measured, if_pos hd, if_pos hs]

theorem measured_behind (hd : 32768 ≤ c.window.distance r.seq) :
    measured owned inj fd r c = attributeBehind (blockedBy inj fd r c) r c := by
  simp only [measured, if_neg (show ¬c.window.distance r.seq < 32 by omega), if_neg (Nat.not_lt.mpr hd)]

theorem measured_placed (h : c.window.Places r.seq) :
    measured owned inj fd r c =
      attributePlaced owned (blockedBy inj fd r c) (c.window.roomFor r.seq) (c.window.placeOf r.seq) r c := by
  rcases h with ⟨hd, hfree⟩ | ⟨hd, hd'⟩
  · simp only [measured, Window.roomFor, Window.placeOf, if_pos hd, hfree, Option.isSome_none, Bool.false_eq_true,
      if_false]
  · simp only [measured, Window.roomFor, Window.placeOf, if_neg (Nat.not_lt.mpr hd),
      if_pos (show c.window.distance r.seq < 32768 by omega)]

theorem preReport_eq_true : preReport r c = true ↔ r.time ≤ c.tr := decide_eq_true_iff

/-- Settles O18: a duplicate and a record behind the window, the anchor rule by the standing of the phase. -/
theorem duplicateAndStaleRecords : Obligations.DuplicateAndStaleRecords := by
  unfold Obligations.DuplicateAndStaleRecords
  intro owned inj fd r c d a
  refine ⟨fun hd hs => measured_duplicate hd hs, fun hd => ?_⟩
  have ha : a = attributeBehind (blockedBy inj fd r c) r c := measured_behind hd
  clear_value a
  subst ha
  refine ⟨rfl, rfl, rfl, if_congr preReport_eq_true rfl rfl, ?_⟩
  intro moves moved
  cases hpre : preReport r c with
  | false =>
    have hmoves : ¬moves := fun h => by simp [preReport_eq_true.mpr h.1] at hpre
    have hcase : (attributeBehind (blockedBy inj fd r c) r c).case = moved := by
      simp only [attributeBehind, hpre, Bool.false_eq_true, if_false]
      rfl
    rw [hcase]
    cases c.phase.standing <;> simp only [if_neg hmoves]
  | true =>
    have hmoves : moves ↔ newer r.seq c.anchor.seq = true := and_iff_right (preReport_eq_true.mp hpre)
    have hcase : (attributeBehind (blockedBy inj fd r c) r c).case = anchorRule r moved := by
      simp only [attributeBehind, hpre, if_true]
      rfl
    rw [hcase]
    unfold anchorRule
    simp only [hmoves]
    cases c.phase.standing <;> simp only [moved, anchorOn, ite_self]

end

/-! ### The window with a record placed (R45, R48) -/

theorem add_distance (w : Window) (q : Count16) : w.base + BitVec.ofNat 16 (w.distance q) = q := by
  rw [Window.distance, BitVec.ofNat_toNat, BitVec.setWidth_eq, add_comm, BitVec.sub_add_cancel]

/-- A window holds a record at its distance from the base, if that is within the 32 places (R44). -/
theorem at_distance (w : Window) (q : Count16) :
    w.at (w.distance q) = if w.distance q < 32 then SMap.look w.slots q.toNat else none := by
  rw [Window.at, add_distance]

theorem look_filter_keys {α : Type} (p : Nat → Bool) (m : SMap α) (k : Nat) :
    SMap.look (m.filter (fun e => p e.1)) k = if p k then SMap.look m k else none := by
  induction m with
  | nil => simp [SMap.look]
  | cons e rest ih =>
    obtain ⟨j, v⟩ := e
    by_cases hj : j = k
    · subst hj
      cases hp : p j <;> simp [hp, SMap.look, ih]
    · cases hp : p j <;> simp [hp, SMap.look, ih, hj]

theorem inRange_iff {w : Window} :
    w.inRange = true ↔
      SMap.sorted w.slots ∧ ∀ e ∈ w.slots, e.1 < 65536 ∧ w.distance (BitVec.ofNat 16 e.1) < 32 := by
  simp [Window.inRange, Window.distance]

/-- A window in range lists nothing of a sequence that it does not cover. -/
theorem look_of_far {w : Window} (h : w.inRange = true) {q : Count16} (hq : 32 ≤ w.distance q) :
    SMap.look w.slots q.toNat = none := by
  rw [Option.eq_none_iff_forall_ne_some]
  intro x hx
  have hnear := ((inRange_iff.mp h).2 _ (mem_of_look hx)).2
  rw [BitVec.ofNat_toNat, BitVec.setWidth_eq] at hnear
  omega

theorem distance_slide (w : Window) (q : Count16) : (w.slide q).distance q = 31 := by
  simp only [Window.distance, Window.slide]
  bv_omega

section
variable {w : Window} {q : Count16}

theorem distance_roomFor (w : Window) (q : Count16) : (w.roomFor q).distance q = w.placeOf q := by
  unfold Window.roomFor Window.placeOf
  split_ifs
  · rfl
  · exact distance_slide w q

theorem placeOf_lt (w : Window) (q : Count16) : w.placeOf q < 32 := by
  unfold Window.placeOf
  split_ifs <;> omega

theorem inRange_roomFor (h : w.inRange = true) (q : Count16) : (w.roomFor q).inRange = true := by
  unfold Window.roomFor
  split_ifs with hd
  · exact h
  · obtain ⟨hsorted, hnear⟩ := inRange_iff.mp h
    refine inRange_iff.mpr ⟨hsorted.filter _, fun e he => ?_⟩
    obtain ⟨hmem, hkeep⟩ := List.mem_filter.mp he
    exact ⟨(hnear e hmem).1, of_decide_eq_true hkeep⟩

theorem inRange_place (h : w.inRange = true) (x : WinSlot) (hd : w.distance q < 32) : (w.place q x).inRange = true := by
  obtain ⟨hsorted, hnear⟩ := inRange_iff.mp h
  refine inRange_iff.mpr ⟨sorted_put hsorted _ _, fun e he => ?_⟩
  rcases mem_put he with rfl | he
  · refine ⟨q.isLt, ?_⟩
    rw [BitVec.ofNat_toNat, BitVec.setWidth_eq]
    exact hd
  · exact hnear e he

theorem at_place_same (x : WinSlot) (hd : w.distance q < 32) : (w.place q x).at (w.distance q) = some x := by
  have h := at_distance (w.place q x) q
  rw [show (w.place q x).distance q = w.distance q from rfl, if_pos hd] at h
  rw [h]
  exact look_put_same _ _ _

theorem at_place_other {p : Count16} (x : WinSlot) (h : p ≠ q) :
    (w.place q x).at (w.distance p) = w.at (w.distance p) := by
  have hkey : p.toNat ≠ q.toNat := fun heq => h (BitVec.eq_of_toNat_eq heq)
  have hleft := at_distance (w.place q x) p
  rw [show (w.place q x).distance p = w.distance p from rfl] at hleft
  rw [hleft, at_distance, Window.place, look_put_other _ _ hkey]

/-- The slide keeps what the slid window covers (R45). -/
theorem at_roomFor {p : Count16} (h : w.inRange = true) (hp : (w.roomFor q).distance p < 32) :
    (w.roomFor q).at ((w.roomFor q).distance p) = w.at (w.distance p) := by
  unfold Window.roomFor at hp ⊢
  split_ifs at hp ⊢ with hd
  · rfl
  · have hkept : decide (((BitVec.ofNat 16 p.toNat) - (q - 31)).toNat < 32) = true := by
      rw [BitVec.ofNat_toNat, BitVec.setWidth_eq]
      exact decide_eq_true hp
    have hslots : SMap.look (w.slide q).slots p.toNat = SMap.look w.slots p.toNat := by
      rw [Window.slide]
      exact (look_filter_keys (fun k => decide ((BitVec.ofNat 16 k - (q - 31)).toNat < 32)) _ _).trans (if_pos hkept)
    rw [at_distance, at_distance, if_pos hp, hslots]
    split_ifs with hnear
    · rfl
    · exact look_of_far h (Nat.le_of_not_lt hnear)

end

/-! ### The checks of a placed record (R59, R60) -/

theorem chainBroken_iff {w : Window} {i : Nat} {x : WinSlot} :
    chainBroken w i x = true ↔
      (∃ b, 1 ≤ i ∧ w.at (i - 1) = some b ∧ b.post + x.effect ≠ x.post) ∨
        ∃ b, w.at (i + 1) = some b ∧ x.post + b.effect ≠ b.post := by
  unfold chainBroken
  rw [Bool.or_eq_true]
  refine or_congr ?_ ?_
  · by_cases hi : i = 0
    · simp [hi]
    · rw [if_neg hi]
      cases w.at (i - 1) with
      | none => simp
      | some b => simp [Nat.one_le_iff_ne_zero, hi]
  · cases w.at (i + 1) with
    | none => simp
    | some b => simp

theorem at_eq_some_lt {w : Window} {j : Nat} {b : WinSlot} (h : w.at j = some b) : j < 32 := by
  unfold Window.at at h
  split_ifs at h with hj
  exact hj

theorem orderBroken_iff {w : Window} {i : Nat} {x : WinSlot} :
    orderBroken w i x = true ↔
      ∃ j b, w.at j = some b ∧
        ((x.preReport = true ∧ j < i ∧ b.preReport = false) ∨ (x.preReport = false ∧ i < j ∧ b.preReport = true)) := by
  unfold orderBroken
  rw [List.any_eq_true]
  refine exists_congr fun j => ?_
  cases hj : w.at j with
  | none => simp
  | some b => simp [List.mem_range.mpr (at_eq_some_lt hj), and_assoc]

/-- The anchor rule leaves the window and CHAIN_BREAK. -/
theorem anchorRule_keeps (r : CardRecord) (c : CaseRecord) :
    (anchorRule r c).window = c.window ∧ (anchorRule r c).flags.chainBreak = c.flags.chainBreak := by
  unfold anchorRule
  split_ifs
  · cases c.phase.standing <;> exact ⟨rfl, rfl⟩
  · exact ⟨rfl, rfl⟩

section
variable (owned : BitVec 5) (blocked : Bool) (w : Window) (i : Nat) (r : CardRecord) (c : CaseRecord)

/-- The place that a record fills (R48). -/
def CardRecord.winSlot (r : CardRecord) (c : CaseRecord) : WinSlot := ⟨r.post, purseEffect r.detail, preReport r c⟩

theorem attributePlaced_window : (attributePlaced owned blocked w i r c).case.window = w.place r.seq (r.winSlot c) := by
  unfold attributePlaced
  dsimp only
  by_cases hpre : preReport r c = true
  · rw [if_pos hpre]
    exact (anchorRule_keeps _ _).1
  · rw [if_neg hpre]
    rfl

theorem attributePlaced_chainBreak :
    (attributePlaced owned blocked w i r c).case.flags.chainBreak =
      (c.flags.chainBreak || chainBroken (w.place r.seq (r.winSlot c)) i (r.winSlot c) ||
        orderBroken (w.place r.seq (r.winSlot c)) i (r.winSlot c)) := by
  unfold attributePlaced
  dsimp only
  by_cases hpre : preReport r c = true
  · rw [if_pos hpre]
    exact (anchorRule_keeps _ _).2
  · rw [if_neg hpre]
    rfl

end

/-- Settles O19: the window has room for the record, which it then holds in its place, and the checks read it so. -/
theorem placedRecordEntersTheWindow : Obligations.PlacedRecordEntersTheWindow := by
  unfold Obligations.PlacedRecordEntersTheWindow
  intro owned inj fd r c hrange d w i effect hplaces
  have hmeasured := measured_placed (owned := owned) (inj := inj) (fd := fd) (r := r) (c := c) hplaces
  have heffect : effect = purseEffect r.detail := by
    simp only [effect]
    cases r.detail <;> rfl
  have hw : w = (c.window.roomFor r.seq).place r.seq (r.winSlot c) := by
    simp only [w, hmeasured, attributePlaced_window]
  have hi : (c.window.roomFor r.seq).distance r.seq = i := distance_roomFor _ _
  have hilt : (c.window.roomFor r.seq).distance r.seq < 32 := by
    rw [distance_roomFor]
    exact placeOf_lt _ _
  have hchain : (measured owned inj fd r c).case.flags.chainBreak =
      (c.flags.chainBreak || chainBroken w i (r.winSlot c) || orderBroken w i (r.winSlot c)) := by
    rw [hmeasured, attributePlaced_chainBreak, hw]
    rfl
  rw [hchain]
  clear_value w effect
  subst hw heffect
  refine ⟨inRange_place (inRange_roomFor hrange _) _ hilt, ?_, ?_, fun q hq hnear => ?_, ?_⟩
  · show (c.window.roomFor r.seq).base = _
    unfold Window.roomFor
    exact apply_ite Window.base _ _ _
  · rw [← hi]
    exact at_place_same _ hilt
  · exact (at_place_other _ hq).trans (at_roomFor hrange hnear)
  · rw [Bool.or_eq_true, Bool.or_eq_true, chainBroken_iff, orderBroken_iff]
    simp only [CardRecord.winSlot, preReport, decide_eq_true_eq, decide_eq_false_iff_not, Nat.not_le, or_assoc]

/-! ### A pre-report record (R49 to R53) -/

section
variable {r : CardRecord} (m : SMap Contract)

theorem contractRule_load {kind amount : Nat} (h : r.detail = .load kind amount) : contractRule r m = m := by
  simp only [contractRule, h]

/-- A SALE replaces its contract where it is the newest to touch it (R52). -/
theorem look_contractRule_sale {slot product price payment : Nat} {vf vt trips : Option Nat}
    (h : r.detail = .sale slot product price payment vf vt trips) (j : Nat) :
    SMap.look (contractRule r m) j =
      if j = slot ∧ (SMap.look m slot).all (fun k => newer r.seq k.last) = true then
        some ⟨product, some price, vf, vt, trips, r.seq⟩
      else SMap.look m j := by
  have hput (x : Contract) :
      SMap.look (SMap.put m slot x) j = if j = slot then some x else SMap.look m j := by
    by_cases hj : j = slot
    · rw [if_pos hj, hj, look_put_same]
    · rw [if_neg hj, look_put_other _ _ hj]
  cases hk : SMap.look m slot with
  | none => simp [contractRule, h, hk, hput]
  | some k =>
    cases hnew : newer r.seq k.last with
    | false => simp [contractRule, h, hk, hnew]
    | true => simp [contractRule, h, hk, hnew, hput]

/-- A USE of a contract updates it where it is the newest to touch it (R53). -/
theorem look_contractRule_use {slot debit : Nat} {vf vt trips epoch version : Option Nat}
    (h : r.detail = .use slot debit vf vt trips epoch version) (j : Nat) :
    SMap.look (contractRule r m) j =
      if j = slot ∧ slot ≤ 3 then
        (SMap.look m slot).map (fun k =>
          if newer r.seq k.last then
            { k with validFrom := vf.or k.validFrom, validTo := vt.or k.validTo, trips := trips.or k.trips
                     last := r.seq }
          else k)
      else SMap.look m j := by
  by_cases hslot : slot ≤ 3
  · by_cases hj : j = slot
    · subst hj
      cases hk : SMap.look m j with
      | none => simp [contractRule, h, hslot, hk]
      | some k => cases hnew : newer r.seq k.last <;> simp [contractRule, h, hslot, hk, hnew, carriedOr]
    · rw [if_neg fun hc => hj hc.1]
      simp only [contractRule, h, if_pos hslot]
      cases SMap.look m slot with
      | none => rfl
      | some k => cases hnew : newer r.seq k.last <;> simp [hnew, look_put_other _ _ hj]
  · simp [contractRule, h, hslot]

end

/-- The case with a record seen: its window and CHAIN_BREAK, its contracts and its tally are new. -/
def CaseRecord.seen (w : Window) (broken : Bool) (contracts : SMap Contract) (tally : Tally) (c : CaseRecord) :
    CaseRecord :=
  { c with window := w, contracts := contracts, tally := tally, flags := { c.flags with chainBreak := broken } }

/-- The pre-report records that come late (R49). -/
def CaseRecord.anchoredOnce (c : CaseRecord) : Bool := c.phase.standing == .anchored || c.phase.standing == .bound

theorem attributePlaced_pre (owned : BitVec 5) (blocked : Bool) (w : Window) (i : Nat) {r : CardRecord} {c : CaseRecord}
    (hpre : preReport r c = true) :
    ∃ (w' : Window) (broken : Bool),
      attributePlaced owned blocked w i r c =
        ⟨anchorRule r
          (c.seen w' broken (if c.phase.standing = .awaiting then contractRule r c.contracts else c.contracts)
            (if c.anchoredOnce then { c.tally with latePreReports := bump c.tally.latePreReports } else c.tally)),
          classOf blocked r c, false, c.anchoredOnce, false⟩ := by
  refine ⟨w.place r.seq (r.winSlot c), c.flags.chainBreak || chainBroken (w.place r.seq (r.winSlot c)) i (r.winSlot c) ||
    orderBroken (w.place r.seq (r.winSlot c)) i (r.winSlot c), ?_⟩
  have hslot : r.winSlot c = ⟨r.post, purseEffect r.detail, true⟩ := by rw [CardRecord.winSlot, hpre]
  simp only [attributePlaced, hslot, hpre, if_true, Bool.true_and, Bool.not_true, Bool.false_and, Bool.or_false, beq_iff_eq]
  rfl

/-- A pre-report record of a case before anchoring may be its new anchor (R50). -/
theorem anchorRule_awaiting {r : CardRecord} {c : CaseRecord} (h : c.phase.standing = .awaiting) :
    anchorRule r c = { c with anchor := if newer r.seq c.anchor.seq then anchorOn r else c.anchor } := by
  unfold anchorRule
  rw [h]
  split_ifs <;> rfl

/-- Of an ANCHORED or a HELD case it re-anchors and holds it (R51). -/
theorem anchorRule_anchored {r : CardRecord} {c : CaseRecord} (h : c.phase.standing = .anchored) :
    anchorRule r c =
      if newer r.seq c.anchor.seq then
        { c with anchor := anchorOn r, flags := { c.flags with lateAnchor := true }, phase := .held }
      else c := by
  unfold anchorRule
  rw [h]

theorem anchorRule_later {r : CardRecord} {c : CaseRecord} (h : c.phase.standing = .bound ∨ c.phase.standing = .voiding) :
    anchorRule r c = c := by
  unfold anchorRule
  rcases h with h | h <;> rw [h] <;> exact ite_self _

theorem classOf_pre {blocked : Bool} {r : CardRecord} {c : CaseRecord} (h : preReport r c = true) :
    classOf blocked r c = if c.anchoredOnce then .latePreReport else .preReport := by
  cases hstanding : c.phase.standing <;> simp [classOf, h, CaseRecord.anchoredOnce, hstanding]

/-- Settles O20: the anchor rule and the contract rule by the standing of the phase. -/
theorem preReportRecordByPhase : Obligations.PreReportRecordByPhase := by
  unfold Obligations.PreReportRecordByPhase
  intro owned inj fd r c d a isNewer late seen hplaces htime
  have hpre : preReport r c = true := preReport_eq_true.mpr htime
  obtain ⟨w, broken, hplaced⟩ :=
    attributePlaced_pre owned (blockedBy inj fd r c) (c.window.roomFor r.seq) (c.window.placeOf r.seq) hpre
  have ha : a = _ := (measured_placed (owned := owned) hplaces).trans hplaced
  rw [classOf_pre hpre] at ha
  have hseen : seen = c.seen w broken c.contracts c.tally := by
    obtain ⟨hwindow, hbreak⟩ := anchorRule_keeps r
      (c.seen w broken (if c.phase.standing = .awaiting then contractRule r c.contracts else c.contracts)
        (if c.anchoredOnce then { c.tally with latePreReports := bump c.tally.latePreReports } else c.tally))
    simp only [seen, ha, hwindow, hbreak]
    rfl
  clear_value a seen
  subst ha hseen
  refine ⟨rfl, rfl, ?_⟩
  cases hstanding : c.phase.standing with
  | awaiting =>
    have honce : c.anchoredOnce = false := by simp [CaseRecord.anchoredOnce, hstanding]
    have hrule := anchorRule_awaiting (r := r) (c := c.seen w broken (contractRule r c.contracts) c.tally) hstanding
    simp only [honce, if_true, Bool.false_eq_true, if_false, hrule]
    refine ⟨trivial, trivial, rfl, ?_⟩
    cases hdetail : r.detail with
    | load kind amount => exact contractRule_load _ hdetail
    | sale slot product price payment vf vt trips => exact look_contractRule_sale _ hdetail
    | use slot debit vf vt trips epoch version => exact look_contractRule_use _ hdetail
  | anchored =>
    have honce : c.anchoredOnce = true := by simp [CaseRecord.anchoredOnce, hstanding]
    have hrule := anchorRule_anchored (r := r) (c := c.seen w broken c.contracts late) hstanding
    simp only [honce, if_true, reduceCtorEq, if_false]
    refine ⟨trivial, trivial, hrule.trans ?_⟩
    rw [show (anchorRule r (c.seen w broken c.contracts _)).flags.chainBreak = broken from (anchorRule_keeps r _).2]
    rfl
  | bound =>
    have honce : c.anchoredOnce = true := by simp [CaseRecord.anchoredOnce, hstanding]
    simp only [honce, if_true, reduceCtorEq, if_false]
    exact ⟨trivial, trivial, anchorRule_later (.inl hstanding)⟩
  | voiding =>
    have honce : c.anchoredOnce = false := by simp [CaseRecord.anchoredOnce, hstanding]
    simp only [honce, Bool.false_eq_true, if_false, reduceCtorEq]
    exact ⟨trivial, trivial, anchorRule_later (.inr hstanding)⟩

/-! ### A post-report record (R54 to R58, R96) -/

/-- A USE is blocked by its validator's list, its feed's cleared version or an acknowledgement (R54, R96). -/
theorem blockedBy_use {inj : Injector} {fd : Feed} {r : CardRecord} {c : CaseRecord} {slot debit : Nat}
    {vf vt trips epoch version : Option Nat} (h : r.detail = .use slot debit vf vt trips epoch version) :
    blockedBy inj fd r c = true ↔
      ∃ lv, c.listVersion = some lv ∧
        ((∃ v, inj.epoch.isSome = true ∧ epoch = inj.epoch ∧ version = some v ∧ lv ≤ min v inj.counter) ∨
         (fd.active = true ∧ lv ≤ fd.cleared) ∨
         (fd.active = true ∧ ∃ k ∈ fd.ring, lv ≤ k.version ∧ k.time ≤ r.time)) := by
  unfold blockedBy
  rw [h]
  cases c.listVersion with
  | none => simp
  | some lv =>
    simp only [Option.some.injEq, exists_eq_left', Bool.or_eq_true, Bool.and_eq_true, decide_eq_true_eq, List.any_eq_true,
      or_assoc]
    refine or_congr_left ?_
    cases epoch with
    | none =>
      simp only [Bool.false_eq_true, false_iff, not_exists, not_and]
      intro v hset hnone
      simp [← hnone] at hset
    | some e =>
      cases version with
      | none => simp
      | some v =>
        simp only [Bool.and_eq_true, beq_iff_eq, decide_eq_true_eq, Option.some.injEq]
        constructor
        · rintro ⟨hepoch, hle⟩
          exact ⟨v, by rw [hepoch]; rfl, hepoch.symm, rfl, hle⟩
        · rintro ⟨v, -, hepoch, rfl, hle⟩
          exact ⟨hepoch.symm, hle⟩

theorem blockedBy_load {inj : Injector} {fd : Feed} {r : CardRecord} {c : CaseRecord} {kind amount : Nat}
    (h : r.detail = .load kind amount) : blockedBy inj fd r c = false := by
  unfold blockedBy
  rw [h]
  cases c.listVersion <;> rfl

theorem blockedBy_sale {inj : Injector} {fd : Feed} {r : CardRecord} {c : CaseRecord} {slot product price payment : Nat}
    {vf vt trips : Option Nat} (h : r.detail = .sale slot product price payment vf vt trips) :
    blockedBy inj fd r c = false := by
  unfold blockedBy
  rw [h]
  cases c.listVersion <;> rfl

theorem attributePlaced_post (owned : BitVec 5) (blocked : Bool) (w : Window) (i : Nat) {r : CardRecord} {c : CaseRecord}
    (hpost : preReport r c = false) :
    ∃ (w' : Window) (broken : Bool),
      attributePlaced owned blocked w i r c =
        ⟨{ c with
            window := w'
            tally := tallyRule owned blocked r c.tally
            flags := { c.flags with
              chainBreak := broken, lateCreditCapped := c.flags.lateCreditCapped || cutsLateCredit owned r c.tally } },
          if blocked then .blockedUse else .postReport, false, false, blocked⟩ := by
  refine ⟨w.place r.seq (r.winSlot c), c.flags.chainBreak || chainBroken (w.place r.seq (r.winSlot c)) i (r.winSlot c) ||
    orderBroken (w.place r.seq (r.winSlot c)) i (r.winSlot c), ?_⟩
  have hslot : r.winSlot c = ⟨r.post, purseEffect r.detail, false⟩ := by rw [CardRecord.winSlot, hpost]
  simp only [attributePlaced, hslot, classOf, hpost, Bool.false_eq_true, if_false, Bool.not_false, Bool.true_and, Bool.false_and]

/-- Settles O21: the tally rule by the kind of the record. -/
theorem postReportRecordEntersTally : Obligations.PostReportRecordEntersTally := by
  unfold Obligations.PostReportRecordEntersTally
  intro owned inj fd r c d a y hplaces htime
  have hpost : preReport r c = false := decide_eq_false (Nat.not_le.mpr htime)
  obtain ⟨w, broken, hplaced⟩ :=
    attributePlaced_post owned (blockedBy inj fd r c) (c.window.roomFor r.seq) (c.window.placeOf r.seq) hpost
  have ha : a = _ := (measured_placed (owned := owned) hplaces).trans hplaced
  clear_value a
  subst ha
  refine ⟨rfl, rfl, rfl, ?_⟩
  cases hdetail : r.detail with
  | use slot debit vf vt trips epoch version =>
    have hiff := blockedBy_use (inj := inj) (fd := fd) (c := c) hdetail
    simp only [← hiff, tallyRule, cutsLateCredit, hdetail, Bool.or_false]
    refine ⟨trivial, fun hb => ?_, fun hb => ?_⟩
    · simp only [hb, if_true]
      exact ⟨trivial, trivial, rfl⟩
    · simp only [hb, Bool.false_eq_true, if_false]
      exact ⟨trivial, trivial, rfl⟩
  | load kind amount =>
    simp only [tallyRule, cutsLateCredit, hdetail, blockedBy_load hdetail, Bool.false_eq_true, if_false]
    refine ⟨trivial, trivial, ?_⟩
    cases howned : owned.getLsbD (kind - 1) with
    | true => exact ⟨rfl, rfl⟩
    | false => exact ⟨rfl, Bool.or_false _⟩
  | sale slot product price payment vf vt trips =>
    simp only [tallyRule, cutsLateCredit, hdetail, blockedBy_sale hdetail, Bool.false_eq_true, if_false, Bool.or_false]
    exact ⟨trivial, trivial, rfl, trivial⟩

end Sys2Proof.Machine

/-! Time, feeds and progress (04_time_feeds_and_progress.md). -/

namespace Sys2Proof.Machine

/-! ### A ring and its clearing (R68) -/

/-- The greatest of some numbers is one of them, and none is above it. -/
theorem foldl_max_spec (a : Nat) (xs : List Nat) :
    xs.foldl max a ∈ a :: xs ∧ ∀ x ∈ a :: xs, x ≤ xs.foldl max a := by
  induction xs generalizing a with
  | nil => simp
  | cons y rest ih =>
    obtain ⟨hmem, hle⟩ := ih (max a y)
    rw [List.foldl_cons]
    refine ⟨?_, fun x hx => ?_⟩
    · rcases List.mem_cons.mp hmem with h | h
      · rw [h]
        rcases Nat.le_total a y with hle | hle
        · simp [Nat.max_eq_right hle]
        · simp [Nat.max_eq_left hle]
      · exact .tail _ (.tail _ h)
    · have htop := hle (max a y) List.mem_cons_self
      rcases List.mem_cons.mp hx with rfl | hx
      · omega
      · rcases List.mem_cons.mp hx with rfl | hx
        · omega
        · exact hle x (.tail _ hx)

/-- A number at or below the greatest version of a ring is at or below one of its versions, or 0. -/
theorem le_highest {f : Feed} {v : Nat} : v ≤ f.highest ↔ (∃ k ∈ f.ring, v ≤ k.version) ∨ v = 0 := by
  unfold Feed.highest
  obtain ⟨hmem, hle⟩ := foldl_max_spec 0 (f.ring.map (·.version))
  constructor
  · intro h
    rcases List.mem_cons.mp hmem with h0 | hm
    · exact .inr (by omega)
    · obtain ⟨k, hk, hv⟩ := List.mem_map.mp hm
      exact .inl ⟨k, hk, by omega⟩
  · rintro (⟨k, hk, hv⟩ | rfl)
    · exact hv.trans (hle _ (.tail _ (List.mem_map_of_mem hk)))
    · exact Nat.zero_le _

/-- The entries of a ring that a sweep has passed. -/
def Feed.passed (f : Feed) : List Ack := f.ring.filter (fun a => a.time ≤ f.sweep)

theorem mem_passed {f : Feed} {a : Ack} : a ∈ f.passed ↔ a ∈ f.ring ∧ a.time ≤ f.sweep := by
  simp [Feed.passed]

theorem clearRing_of_none {f : Feed} (h : f.passed = []) : f.clearRing = f := by
  unfold Feed.clearRing
  rw [show f.ring.filter (fun a => a.time ≤ f.sweep) = [] from h]
  rfl

theorem clearRing_of_cons {f : Feed} {a : Ack} {rest : List Ack} (h : f.passed = a :: rest) :
    f.clearRing =
      { f with cleared := max f.cleared ((rest.map (·.version)).foldl max a.version)
               ring := f.ring.filter (fun e => (rest.map (·.version)).foldl max a.version < e.version) } := by
  unfold Feed.clearRing
  rw [show f.ring.filter (fun a => a.time ≤ f.sweep) = a :: rest from h]
  rfl

/-! ### H and Vs (R71) -/

theorem minima_of_none {s : State} (h : ∀ e ∈ s.feeds, e.2.active = false) : s.minima = s.horizon := by
  have hnone : s.activeFeeds = [] := by
    rw [List.eq_nil_iff_forall_not_mem]
    intro f hf
    obtain ⟨hactive, e, he, rfl⟩ := mem_activeFeeds.mp hf
    rw [h e he] at hactive
    cases hactive
  simp only [State.minima, hnone]
  rfl

/-- The least over the ACTIVE feeds is a value of one of them. -/
theorem leastOr_activeFeeds (d : Nat) (g : Feed → Nat) {s : State} {e : Nat × Feed} (he : e ∈ s.feeds)
    (hactive : e.2.active = true) :
    ∃ x ∈ s.feeds, x.2.active = true ∧ g x.2 = leastOr d (s.activeFeeds.map g) := by
  have hm : e.2 ∈ s.activeFeeds := mem_activeFeeds.mpr ⟨hactive, e, he, rfl⟩
  obtain ⟨f, hf, hleast⟩ := List.mem_map.mp (leastOr_mem d (List.ne_nil_of_mem (List.mem_map_of_mem (f := g) hm)))
  obtain ⟨hfa, x, hx, rfl⟩ := mem_activeFeeds.mp hf
  exact ⟨x, hx, hfa, hleast⟩

/-- Settles O24: the ring is cleared of what the greatest version passed covers; the minima are reached. -/
theorem clearingAndMinima : Obligations.ClearingAndMinima := by
  unfold Obligations.ClearingAndMinima
  refine ⟨fun f => ?_, fun s => ⟨minima_of_none, fun e he hactive => ?_⟩⟩
  · cases hpassed : f.passed with
    | nil =>
      rw [clearRing_of_none hpassed]
      have hnone (a : Ack) (ha : a ∈ f.ring) : f.sweep < a.time := by
        by_contra hle
        have hmem := mem_passed.mpr ⟨ha, Nat.le_of_not_lt hle⟩
        rw [hpassed] at hmem
        cases hmem
      refine ⟨?_, rfl, Nat.le_refl _, fun a ha hle => absurd (hnone a ha) (Nat.not_lt.mpr hle), .inl rfl⟩
      rw [eq_comm, List.filter_eq_self]
      intro e _
      exact List.all_eq_true.mpr fun a ha => decide_eq_true (.inl (hnone a ha))
    | cons a rest =>
      obtain ⟨hmem, htop⟩ := foldl_max_spec a.version (rest.map (·.version))
      rw [clearRing_of_cons hpassed]
      set top := (rest.map (·.version)).foldl max a.version
      rw [← List.map_cons, ← hpassed] at hmem htop
      obtain ⟨k, hk, hversion⟩ := List.mem_map.mp hmem
      obtain ⟨hkring, hktime⟩ := mem_passed.mp hk
      have hle (b : Ack) (hb : b ∈ f.ring) (htime : b.time ≤ f.sweep) : b.version ≤ top :=
        htop _ (List.mem_map_of_mem (mem_passed.mpr ⟨hb, htime⟩))
      refine ⟨List.filter_congr fun e _ => ?_, rfl, Nat.le_max_left _ _,
        fun b hb htime => (hle b hb htime).trans (Nat.le_max_right _ _), ?_⟩
      · rw [Bool.eq_iff_iff, decide_eq_true_eq, List.all_eq_true]
        refine ⟨fun h b hb => decide_eq_true ?_, fun h => ?_⟩
        · by_cases htime : b.time ≤ f.sweep
          · exact .inr (Nat.lt_of_le_of_lt (hle b hb htime) h)
          · exact .inl (Nat.lt_of_not_le htime)
        · rcases of_decide_eq_true (h k hkring) with hlt | hlt
          · exact absurd hlt (Nat.not_lt.mpr hktime)
          · exact hversion ▸ hlt
      · rcases Nat.le_total f.cleared top with h | h
        · exact .inr ⟨k, hkring, hktime, hversion.trans (Nat.max_eq_right h).symm⟩
        · exact .inl (Nat.max_eq_left h)
  · obtain ⟨hh, hvs⟩ := minima_le he hactive
    exact ⟨hh, hvs, leastOr_activeFeeds _ _ he hactive, leastOr_activeFeeds _ _ he hactive⟩

/-! ### SWEEP (R67) -/

section
variable {f : Frame} {rest : List Frame} {s : State}

/-- What SWEEP leaves: the record has gone on, and its feed is swept. -/
theorem sweeps (hactive : s.isActive = true) (hrx : s.station.rx = f :: rest) (hkind : f.kind = kindSweep)
    (hroom : s.upQueue.length < 256) :
    exec .sweep s = .next (finish ((readSweep f.body).elim (takeUp f s) (fun b => sweepEffect b.1 b.2 (takeUp f s)))) := by
  have hready : (f.kind == kindSweep && s.upRoom) = true := by
    rw [hkind]
    exact decide_eq_true hroom
  simp only [exec, execSweep, head_of_rx (l := .station) hactive hrx]
  rw [event_next hready]
  cases readSweep f.body <;> rfl

/-- What LISTACK leaves: the record has gone on, and enters its feed's ring. -/
theorem acknowledges (hactive : s.isActive = true) (hrx : s.station.rx = f :: rest) (hkind : f.kind = kindListack)
    (hroom : s.upQueue.length < 256) :
    exec .listack s = .next (finish ((readListack f.body).elim (takeUp f s) (fun a => listackEffect a (takeUp f s)))) := by
  have hready : (f.kind == kindListack && s.upRoom) = true := by
    rw [hkind]
    exact decide_eq_true hroom
  simp only [exec, execListack, head_of_rx (l := .station) hactive hrx]
  rw [event_next hready]
  cases readListack f.body <;> rfl

end

/-- A feed entry changed and a notice of it counted. -/
theorem noted_feedFault (s : State) (n : Nat) (x : Feed) (c : NoticeClass) :
    Noted (s.withFeedFault n x c) (countNotice c (.feed n) (s.setFeed n x)) :=
  noted_countNotice (noted_setFeed (noted_refl s) n x) c (.feed n)

/-- A feed entry changed, with H and Vs recomputed. -/
theorem noted_feedRecomputed (s : State) (n : Nat) (x : Feed) :
    Noted (State.recomputed { s with feeds := SMap.setD s.feeds {} n x }) (recompute (s.setFeed n x)) :=
  noted_recompute (noted_setFeed (noted_refl s) n x)

/-- A record of an ABSENT feed is counted (R42, R67, R69). -/
theorem noted_countUnadmitted (s : State) (n : Nat) :
    Noted
      (s.withFeedFault n { s.feedAt n with unadmitted := min 65535 ((s.feedAt n).unadmitted + 1) } .unadmittedFeed)
      (countUnadmitted n s) := noted_feedFault s n _ _

section
variable {n t : Nat} {s : State}

theorem sweepEffect_unknown (hn : 63 < n) : Noted s (sweepEffect n t s) := by
  rw [sweepEffect, if_pos hn]
  exact noted_refl s

theorem sweepEffect_absent (hn : n ≤ 63) (hx : (s.feedAt n).active = false) :
    sweepEffect n t s = countUnadmitted n s := by
  rw [sweepEffect, if_neg (Nat.not_lt.mpr hn), if_pos hx]

theorem sweepEffect_regress (hn : n ≤ 63) (hx : (s.feedAt n).active = true) (ht : s.clampTime t ≤ (s.feedAt n).sweep) :
    Noted
      (s.withFeedFault n { s.feedAt n with regresses := min 65535 ((s.feedAt n).regresses + 1) } .sweepRegress)
      (sweepEffect n t s) := by
  rw [sweepEffect, if_neg (Nat.not_lt.mpr hn), if_neg (by simp [hx]), if_pos ht]
  exact noted_feedFault s n _ _

theorem sweepEffect_advance (hn : n ≤ 63) (hx : (s.feedAt n).active = true) (ht : (s.feedAt n).sweep < s.clampTime t) :
    Noted
      (State.recomputed
        { s with feeds := SMap.setD s.feeds {} n ({ s.feedAt n with sweep := s.clampTime t } : Feed).clearRing })
      (sweepEffect n t s) := by
  rw [sweepEffect, if_neg (Nat.not_lt.mpr hn), if_neg (by simp [hx]), if_neg (Nat.not_le.mpr ht)]
  exact noted_feedRecomputed s n _

end

/-- Settles O22: the conditions of a SWEEP in their order. -/
theorem sweepAdvancesItsFeed : Obligations.SweepAdvancesItsFeed := by
  unfold Obligations.SweepAdvancesItsFeed
  intro f rest s hactive hrx hkind hroom s0 leaves
  have hexec := sweeps hactive hrx hkind hroom
  rw [takeUp_of_rx f hrx] at hexec
  refine ⟨fun hlen => ?_, fun hlen => ?_⟩
  · rw [readSweep, if_neg hlen] at hexec
    exact ⟨_, hexec, ended_finish (noted_refl s0)⟩
  · rw [readSweep, if_pos hlen] at hexec
    intro n v x
    have hleaves {e : State} (hnoted : Noted e (sweepEffect n (fieldAt 1 4 f.body) s0)) : leaves e :=
      ⟨_, hexec, ended_finish hnoted⟩
    refine ⟨fun hn => hleaves (sweepEffect_unknown hn), fun hn hx => hleaves ?_,
      fun hn hx hv => hleaves (sweepEffect_regress (s := s0) hn hx hv),
      fun hn hx hv => hleaves (sweepEffect_advance (s := s0) hn hx hv)⟩
    rw [sweepEffect_absent (s := s0) hn hx]
    exact noted_countUnadmitted s0 n

/-! ### LISTACK (R69, R70) -/

/-- A LISTACK is ignored: of another epoch, or of a version that its feed holds or has passed (R69). -/
def State.ignoresAck (s : State) (a : Listack) : Prop :=
  s.injector.epoch ≠ some a.epoch ∨ (∃ k ∈ (s.feedAt a.feed).ring, min a.version s.injector.counter ≤ k.version) ∨
    min a.version s.injector.counter ≤ (s.feedAt a.feed).cleared

theorem enter_eq (x : Feed) (a : Ack) :
    x.enter a = { x with ring := (if x.ring.length < 8 then x.ring else x.ring.dropLast) ++ [a] } := by
  unfold Feed.enter
  split_ifs <;> rfl

section
variable {a : Listack} {s : State}

theorem listackEffect_unknown (hn : 63 < a.feed) : listackEffect a s = s := if_pos hn

theorem listackEffect_absent (hn : a.feed ≤ 63) (hx : (s.feedAt a.feed).active = false) :
    listackEffect a s = countUnadmitted a.feed s := by
  simp only [listackEffect, if_neg (Nat.not_lt.mpr hn), if_pos hx]

/-- A LISTACK of an ACTIVE feed is ignored, or enters the ring, which a sweep at or after its time clears. -/
theorem listackEffect_active (hn : a.feed ≤ 63) (hx : (s.feedAt a.feed).active = true) :
    listackEffect a s =
      if (s.injector.epoch ≠ some a.epoch ∨ min a.version s.injector.counter ≤ (s.feedAt a.feed).highest) ∨
          min a.version s.injector.counter ≤ (s.feedAt a.feed).cleared then ignoreAck a.feed s
      else
        if a.time ≤ (s.feedAt a.feed).sweep then
          recompute
            (s.setFeed a.feed ((s.feedAt a.feed).enter ⟨min a.version s.injector.counter, a.time⟩).clearRing)
        else s.setFeed a.feed ((s.feedAt a.feed).enter ⟨min a.version s.injector.counter, a.time⟩) := by
  simp only [listackEffect, if_neg (Nat.not_lt.mpr hn), hx, Bool.true_eq_false, if_false]
  split_ifs <;> tauto

/-- The two forms of the condition agree: a version of 0 is at or below what the feed has cleared. -/
theorem ignoresAck_iff :
    ((s.injector.epoch ≠ some a.epoch ∨ min a.version s.injector.counter ≤ (s.feedAt a.feed).highest) ∨
      min a.version s.injector.counter ≤ (s.feedAt a.feed).cleared) ↔ s.ignoresAck a := by
  rw [le_highest, State.ignoresAck, or_assoc, or_assoc]
  refine or_congr_right (or_congr_right (or_iff_right_of_imp fun h => ?_))
  rw [h]
  exact Nat.zero_le _

theorem listackEffect_ignored (hn : a.feed ≤ 63) (hx : (s.feedAt a.feed).active = true) (h : s.ignoresAck a) :
    Noted
      (s.withFeedFault a.feed
        { s.feedAt a.feed with acksIgnored := min 65535 ((s.feedAt a.feed).acksIgnored + 1) } .ackIgnored)
      (listackEffect a s) := by
  rw [listackEffect_active hn hx, if_pos (ignoresAck_iff.mpr h)]
  exact noted_feedFault s a.feed _ _

theorem listackEffect_cleared (hn : a.feed ≤ 63) (hx : (s.feedAt a.feed).active = true) (h : ¬s.ignoresAck a)
    (ht : a.time ≤ (s.feedAt a.feed).sweep) :
    Noted
      (State.recomputed
        { s with
          feeds := SMap.setD s.feeds {} a.feed
            ((s.feedAt a.feed).enter ⟨min a.version s.injector.counter, a.time⟩).clearRing })
      (listackEffect a s) := by
  rw [listackEffect_active hn hx, if_neg (mt ignoresAck_iff.mp h), if_pos ht]
  exact noted_feedRecomputed s a.feed _

theorem listackEffect_entered (hn : a.feed ≤ 63) (hx : (s.feedAt a.feed).active = true) (h : ¬s.ignoresAck a)
    (ht : ¬a.time ≤ (s.feedAt a.feed).sweep) :
    Noted
      { s with
        feeds := SMap.setD s.feeds {} a.feed
          ((s.feedAt a.feed).enter ⟨min a.version s.injector.counter, a.time⟩) }
      (listackEffect a s) := by
  rw [listackEffect_active hn hx, if_neg (mt ignoresAck_iff.mp h), if_neg ht]
  exact noted_setFeed (noted_refl s) a.feed _

end

/-- Settles O23: the conditions of a LISTACK in their order. -/
theorem listackEntersItsRing : Obligations.ListackEntersItsRing := by
  unfold Obligations.ListackEntersItsRing
  intro f rest s hactive hrx hkind hroom s0 leaves
  have hexec := acknowledges hactive hrx hkind hroom
  rw [takeUp_of_rx f hrx] at hexec
  refine ⟨fun hlen => ?_, fun hlen => ?_⟩
  · rw [readListack, if_neg hlen] at hexec
    exact ⟨_, hexec, ended_finish (noted_refl s0)⟩
  · rw [readListack, if_pos hlen] at hexec
    intro n v time x ignored entered
    let a : Listack := ⟨n, fieldAt 1 4 f.body, fieldAt 5 4 f.body, time⟩
    have hleaves {e : State} (hnoted : Noted e (listackEffect a s0)) : leaves e := ⟨_, hexec, ended_finish hnoted⟩
    have hentered : x.enter ⟨v, time⟩ = entered := enter_eq x _
    refine ⟨fun hn => hleaves ?_, fun hn hx => hleaves ?_,
      fun hn hx hi => hleaves (listackEffect_ignored (a := a) (s := s0) hn hx hi), fun hn hx hi => ?_⟩
    · rw [listackEffect_unknown hn]
      exact noted_refl s0
    · rw [listackEffect_absent (a := a) (s := s0) hn hx]
      exact noted_countUnadmitted s0 n
    · rw [← hentered]
      by_cases ht : time ≤ x.sweep
      · rw [if_pos ht]
        exact hleaves (listackEffect_cleared (a := a) (s := s0) hn hx hi ht)
      · rw [if_neg ht]
        exact hleaves (listackEffect_entered (a := a) (s := s0) hn hx hi ht)

end Sys2Proof.Machine

namespace Sys2Proof.Machine

/-! ### The network clock (R63 to R65) -/

section
variable {f : Frame} {rest : List Frame} {s : State}

theorem noted_countTimeRegress (s : State) (t : Nat) :
    Noted
      { s with notices := if t < s.clock.time then s.notices.counted .timeRegress (.line .centre) else s.notices }
      (countIf (decide (t < s.clock.time)) .timeRegress (.line .centre) s) := by
  simpa only [decide_eq_true_eq] using
    noted_countIf (noted_refl s) (decide (t < s.clock.time)) .timeRegress (.line .centre)

/-- What the adoption of a carried time leaves (R64, R65). -/
def State.timeAdopted (t : Nat) (s : State) : State :=
  if s.clock.isSet = false ∨ s.clock.time < t then
    { s with clock := ⟨t, true⟩, walk := if s.clock.time / 60 < t / 60 then s.triggered else s.walk }
  else if t < s.clock.time then { s with notices := s.notices.counted .timeRegress (.line .centre) }
  else s

theorem noted_adoptTime (t : Nat) (s : State) : Noted (s.timeAdopted t) (adoptTime t s) := by
  unfold State.timeAdopted adoptTime
  by_cases hlater : s.clock.isSet = false ∨ s.clock.time < t
  · rw [if_pos hlater, if_pos hlater]
    have h := noted_triggerIf (noted_setClock (noted_refl s) ⟨t, true⟩) (crossesMinute s.clock.time t)
    simp only [crossesMinute, decide_eq_true_eq] at h ⊢
    exact h
  · rw [if_neg hlater, if_neg hlater]
    have hcounted := noted_countTimeRegress s t
    by_cases hback : t < s.clock.time
    · rw [if_pos hback] at hcounted ⊢
      exact hcounted
    · rw [if_neg hback] at hcounted ⊢
      exact hcounted

theorem timeAdopted_path (t : Nat) (s : State) :
    (s.timeAdopted t).downQueue = s.downQueue ∧ (s.timeAdopted t).centre = s.centre := by
  unfold State.timeAdopted
  split_ifs <;> exact ⟨rfl, rfl⟩

/-- What TIME leaves: the record has gone on, and the time it carries has been adopted. -/
theorem times (hactive : s.isActive = true) (hrx : s.centre.rx = f :: rest) (hkind : f.kind = kindTime)
    (hroom : s.downQueue.length < 128) :
    exec .time s = .next (finish ((timeCarried f.body).elim (takeDown f s) (fun t => adoptTime t (takeDown f s)))) := by
  have hready : (f.kind == kindTime && s.downRoom) = true := by
    rw [hkind]
    exact decide_eq_true hroom
  simp only [exec, execTime, head_of_rx (l := .centre) hactive hrx]
  rw [event_next hready]
  cases timeCarried f.body <;> rfl

end

theorem exec_clockTick (s : State) :
    exec .clockTick s =
      event s.clock.isSet
        (fun s =>
          triggerIf (crossesMinute s.clock.time (satAdd max32 s.clock.time 1))
            { s with clock := { s.clock with time := satAdd max32 s.clock.time 1 } }) s := rfl

/-- A tick of a set clock (R63). -/
theorem clockTick_effect {s : State} (h : s.clock.isSet = true) :
    triggerIf (crossesMinute s.clock.time (satAdd max32 s.clock.time 1))
        { s with clock := { s.clock with time := satAdd max32 s.clock.time 1 } } =
      { s with
        clock := ⟨min 4294967295 (s.clock.time + 1), true⟩
        walk := if s.clock.time / 60 < min 4294967295 (s.clock.time + 1) / 60 then s.triggered else s.walk } := by
  unfold triggerIf
  rw [trigger_walk]
  simp only [crossesMinute, decide_eq_true_eq, h]
  rfl

/-- Settles O26: the adoption of a time, and the tick. -/
theorem clockIsSetAndAdvances : Obligations.ClockIsSetAndAdvances := by
  unfold Obligations.ClockIsSetAndAdvances
  refine ⟨fun f rest s hactive hrx hkind hroom hlen => ?_, fun f rest s hactive hrx hkind hroom => ?_,
    fun s hset => ?_, fun s hset => (exec_clockTick s).trans (event_idle hset)⟩
  · have hexec := times hactive hrx hkind hroom
    have hcarried : timeCarried f.body = some (fieldAt 0 4 f.body) := by rw [timeCarried, readTime, if_pos hlen]
    rw [hcarried, takeDown_of_rx hrx] at hexec
    refine ⟨_, hexec, ?_⟩
    intro v s0
    have hended : State.ended (s0.timeAdopted v) (finish (adoptTime v s0)) := ended_finish (noted_adoptTime v s0)
    unfold State.timeAdopted at hended
    rw [apply_ite State.ended, ite_apply, apply_ite State.ended, ite_apply] at hended
    exact hended
  · have hexec := times hactive hrx hkind hroom
    rw [takeDown_of_rx hrx] at hexec
    refine ⟨_, hexec, ?_⟩
    cases timeCarried f.body with
    | none => exact ⟨congrArg Road.downQueue (finish_road _), by rw [Option.elim_none, finish_centre, startCredit_rx]⟩
    | some v =>
      obtain ⟨hroad, hcentre⟩ := timeAdopted_path v
        { s with centre := { s.centre with rx := rest }, downQueue := s.downQueue ++ [f] }
      obtain ⟨-, htroad, -, htcentre, -⟩ := ended_finish (noted_adoptTime v
        { s with centre := { s.centre with rx := rest }, downQueue := s.downQueue ++ [f] })
      refine ⟨(congrArg Road.downQueue htroad).trans hroad, ?_⟩
      rw [Option.elim_some, htcentre, startCredit_rx, hcentre]
  · have hended := ended_finish (noted_refl { s with
      clock := ⟨min 4294967295 (s.clock.time + 1), true⟩
      walk := if s.clock.time / 60 < min 4294967295 (s.clock.time + 1) / 60 then s.triggered else s.walk })
    exact ⟨_, (exec_clockTick s).trans (event_next hset), (congrArg finish (clockTick_effect hset)) ▸ hended⟩

/-! ### The feed commands (R72 to R74) -/

section
variable {c : Control} {bs : List Byte} {s : State}

theorem admitFeed_of_params (hp : c.params = some bs) (hl : bs.length = 5) :
    admitFeed c s =
      if 63 < fieldAt 0 1 bs then refuse .badField s
      else if (s.feedAt (fieldAt 0 1 bs)).active then refuse .feedActive s
      else
        accept (recompute (s.setFeed (fieldAt 0 1 bs) (admittedFeed (fieldAt 1 4 bs) (fieldAt 0 1 bs) s)))
          (.admitted (fieldAt 0 1 bs) (admittedFeed (fieldAt 1 4 bs) (fieldAt 0 1 bs) s).sweep
            (admittedFeed (fieldAt 1 4 bs) (fieldAt 0 1 bs) s).cleared
            (s.setFeed (fieldAt 0 1 bs) (admittedFeed (fieldAt 1 4 bs) (fieldAt 0 1 bs) s)).minima) := by
  simp only [admitFeed, hp, ofLength_some hl]

theorem retireFeed_of_params (hp : c.params = some bs) (hl : bs.length = 1) :
    retireFeed c s =
      if 63 < fieldAt 0 1 bs then refuse .badField s
      else if (s.feedAt (fieldAt 0 1 bs)).active then
        accept (recompute (s.setFeed (fieldAt 0 1 bs) (retiredFeed (fieldAt 0 1 bs) s)))
          (.retired (fieldAt 0 1 bs) (s.setFeed (fieldAt 0 1 bs) (retiredFeed (fieldAt 0 1 bs) s)).minima)
      else refuse .feedAbsent s := by
  simp only [retireFeed, hp, ofLength_some hl]
  cases (s.feedAt (fieldAt 0 1 bs)).active <;> rfl

theorem readFeed_of_params (hp : c.params = some bs) (hl : bs.length = 1) :
    readFeed c s =
      if 63 < fieldAt 0 1 bs then refuse .badField s
      else accept s (.feedRead (s.feedAt (fieldAt 0 1 bs)) s.horizon) := by
  simp only [readFeed, hp, ofLength_some hl]

end

/-- Settles O27: each command by its conditions in order. -/
theorem feedCommands : Obligations.FeedCommands := by
  unfold Obligations.FeedCommands
  refine ⟨fun c bs s hin hp hl => ?_, fun c bs s hin hp hl => ?_, fun c bs s hin hp hl => ?_⟩
  · have hown := admitFeed_of_params (s := s.taken) hp hl
    intro n x e
    refine next_ite (fun hn => ?_) fun hn => next_ite (fun hx => ?_) fun hx => ?_
    · exact refused_of_own hin (by decide) (hown.trans (if_pos hn))
    · exact refused_of_own hin (by decide) (hown.trans ((if_neg hn).trans (if_pos hx)))
    · exact accepted_of_own hin (by decide) (hown.trans ((if_neg hn).trans (if_neg hx)))
        (noted_feedRecomputed s.taken n x) rfl
  · have hown := retireFeed_of_params (s := s.taken) hp hl
    intro n e
    refine next_ite (fun hn => ?_) fun hn => next_ite (fun hx => ?_) fun hx => ?_
    · exact refused_of_own hin (by decide) (hown.trans (if_pos hn))
    · exact accepted_of_own hin (by decide) (hown.trans ((if_neg hn).trans (if_pos hx)))
        (noted_feedRecomputed s.taken n _) rfl
    · exact refused_of_own hin (by decide) (hown.trans ((if_neg hn).trans (if_neg hx)))
  · have hown := readFeed_of_params (s := s.taken) hp hl
    refine next_ite (fun hn => ?_) fun hn => ?_
    · exact refused_of_own hin (by decide) (hown.trans (if_pos hn))
    · exact accepted_of_own hin (by decide) (hown.trans (if_neg hn)) (noted_refl s.taken) rfl

/-! ### The walk (R76 to R82) -/

theorem finalized_eq (vs : Nat) (c : CaseRecord) :
    finalized vs c =
      if c.listVersion.any (fun v => decide (v ≤ vs)) then { c with flags := { c.flags with tallyFinal := true } }
      else c := by
  unfold finalized
  cases c.listVersion with
  | none => rfl
  | some lv => simp

theorem noted_keepCase (n : Nat) (c f : CaseRecord) (s : State) :
    Noted (if f = c then s else s.withCase n f) (keepCase n c f s) := by
  unfold keepCase
  split_ifs
  · exact noted_refl s
  · exact noted_withCase (noted_refl s) n f

/-- A case that enters STALLED, with its notice (R27, R81). -/
def State.withStalled (source : StalledFrom) (n : Nat) (f : CaseRecord) (s : State) : State :=
  { s.withCase n { f with phase := .stalled source, flags := { f.flags with stalledOnce := true } } with
    notices := s.notices.counted .caseStalled (.handle (s.handleAt n)) }

theorem noted_stallCase (source : StalledFrom) (n : Nat) (f : CaseRecord) (s : State) :
    Noted (s.withStalled source n f) (stallCase source n f s) :=
  noted_countNotice (noted_withCase (noted_refl s) n _) .caseStalled (.handle (s.handleAt n))

theorem stallDue_iff {c : CaseRecord} {s : State} :
    s.stallDue c = true ↔ c.tr + s.policy.settleLimit * 86400 ≤ s.clock.time ∧ c.flags.stalledOnce = false := by
  simp [State.stallDue]

theorem retentionDue_iff {c : CaseRecord} {h : Handle} {s : State} (hphase : c.phase = .settled) :
    s.retentionDue h c = true ↔
      (s.emission h .settlement).isNone = true ∧ s.policy.retentionDays ≠ 0 ∧
        c.settleTime.any (fun v => decide (v + s.policy.retentionDays * 86400 ≤ s.clock.time)) = true := by
  unfold State.retentionDue State.emitted
  cases c.settleTime <;> simp [hphase, and_assoc]

theorem exec_walkVisit {p : Nat} {again : Bool} {s : State} (hactive : s.isActive = true) (h : s.walk = some ⟨p, again⟩) :
    exec .walkVisit s = .next (finish (visitSlot p { s with walk := Walk.advance ⟨p, again⟩ })) := by
  simp only [exec, execWalkVisit, h]
  exact event_next hactive

theorem visitSlot_of_none {n : Nat} {s : State} (h : s.caseAt n = none) : visitSlot n s = s := by
  simp only [visitSlot, h]

theorem visitSlot_of_some {n : Nat} {c : CaseRecord} {s : State} (h : s.caseAt n = some c) :
    visitSlot n s = visitCase n c s := by
  simp only [visitSlot, h]

section
variable {n : Nat} {c : CaseRecord} {s : State}

theorem visitCase_waiting (h : c.phase = .opening ∨ c.phase = .voiding) : visitCase n c s = s := by
  rcases h with h | h <;> simp only [visitCase, h]

theorem visitCase_anchored (h : c.phase = .anchored ∨ c.phase = .held) :
    visitCase n c s = keepCase n c (finalized s.horizon.vs c) s := by
  rcases h with h | h <;> simp only [visitCase, h]

theorem visitCase_listed (h : c.phase = .listed) :
    visitCase n c s =
      if c.tr ≤ s.horizon.h then anchorCase n (finalized s.horizon.vs c) s
      else if s.stallDue c then stallCase .listed n (finalized s.horizon.vs c) s
      else keepCase n c (finalized s.horizon.vs c) s := by
  simp only [visitCase, h]

theorem visitCase_stalledListed (h : c.phase = .stalled .listed) :
    visitCase n c s =
      if c.tr ≤ s.horizon.h then anchorCase n (finalized s.horizon.vs c) s
      else keepCase n c (finalized s.horizon.vs c) s := by
  simp only [visitCase, h]

theorem visitCase_bound (h : c.phase = .bound) :
    visitCase n c s =
      if (finalized s.horizon.vs c).flags.tallyFinal then settleCase n (finalized s.horizon.vs c) s
      else if s.stallDue c then stallCase .bound n (finalized s.horizon.vs c) s
      else keepCase n c (finalized s.horizon.vs c) s := by
  simp only [visitCase, h]

theorem visitCase_stalledBound (h : c.phase = .stalled .bound) :
    visitCase n c s =
      if (finalized s.horizon.vs c).flags.tallyFinal then settleCase n (finalized s.horizon.vs c) s
      else keepCase n c (finalized s.horizon.vs c) s := by
  simp only [visitCase, h]

theorem visitCase_settled (h : c.phase = .settled) :
    visitCase n c s = if s.retentionDue (s.handleAt n) c then freeSlot n s else s := by
  simp only [visitCase, h]

end

/-- Settles O28: each phase by its own steps. -/
theorem walkVisitsEachSlot : Obligations.WalkVisitsEachSlot := by
  unfold Obligations.WalkVisitsEachSlot
  intro p again s hactive hwalk
  refine ⟨_, exec_walkVisit hactive hwalk, ?_⟩
  intro e
  cases hc : s.caseAt p with
  | none => exact ended_finish (visitSlot_of_none (s := e) hc ▸ noted_refl e)
  | some c =>
    dsimp -zeta only
    intro f kept due stalled
    have hf : f = finalized e.horizon.vs c := (finalized_eq _ c).symm
    have hended {a e' : State} (hvisit : visitCase p c e = e') (hn : Noted a e') : a.ended (finish (visitSlot p e)) := by
      rw [visitSlot_of_some (s := e) hc, hvisit]
      exact ended_finish hn
    have hkept : Noted kept (keepCase p c (finalized e.horizon.vs c) e) := hf ▸ noted_keepCase p c f e
    have hanchored : Noted (e.withAnchored p f) (anchorCase p (finalized e.horizon.vs c) e) :=
      hf ▸ noted_anchorCase (noted_refl e) p f
    have hsettled : Noted (e.withSettled p f) (settleCase p (finalized e.horizon.vs c) e) :=
      hf ▸ noted_settleCase (noted_refl e) p f
    have hstalled (source : StalledFrom) :
        Noted (stalled source) (stallCase source p (finalized e.horizon.vs c) e) := hf ▸ noted_stallCase source p f e
    have hdue : e.stallDue c = true ↔ due := stallDue_iff
    cases hphase : c.phase with
    | opening => exact hended (visitCase_waiting (.inl hphase)) (noted_refl e)
    | voiding => exact hended (visitCase_waiting (.inr hphase)) (noted_refl e)
    | anchored => exact hended (visitCase_anchored (.inl hphase)) hkept
    | held => exact hended (visitCase_anchored (.inr hphase)) hkept
    | listed =>
      have hvisit := visitCase_listed (n := p) (s := e) hphase
      by_cases hh : c.tr ≤ s.horizon.h
      · simp only [if_pos hh]
        exact hended (hvisit.trans (if_pos hh)) hanchored
      · rw [if_neg hh] at hvisit
        by_cases hd : due
        · simp only [if_neg hh, if_pos hd]
          exact hended (hvisit.trans (if_pos (hdue.mpr hd))) (hstalled .listed)
        · simp only [if_neg hh, if_neg hd]
          exact hended (hvisit.trans (if_neg (mt hdue.mp hd))) hkept
    | stalled source =>
      cases source with
      | listed =>
        have hvisit := visitCase_stalledListed (n := p) (s := e) hphase
        by_cases hh : c.tr ≤ s.horizon.h
        · simp only [if_pos hh]
          exact hended (hvisit.trans (if_pos hh)) hanchored
        · simp only [if_neg hh]
          exact hended (hvisit.trans (if_neg hh)) hkept
      | bound =>
        have hvisit := visitCase_stalledBound (n := p) (s := e) hphase
        rw [← hf] at hvisit hsettled hkept
        by_cases hfinal : f.flags.tallyFinal = true
        · simp only [if_pos hfinal]
          exact hended (hvisit.trans (if_pos hfinal)) hsettled
        · simp only [if_neg hfinal]
          exact hended (hvisit.trans (if_neg hfinal)) hkept
    | bound =>
      have hvisit := visitCase_bound (n := p) (s := e) hphase
      rw [← hf] at hvisit hsettled hkept hstalled
      by_cases hfinal : f.flags.tallyFinal = true
      · simp only [if_pos hfinal]
        exact hended (hvisit.trans (if_pos hfinal)) hsettled
      · rw [if_neg hfinal] at hvisit
        by_cases hd : due
        · simp only [if_neg hfinal, if_pos hd]
          exact hended (hvisit.trans (if_pos (hdue.mpr hd))) (hstalled .bound)
        · simp only [if_neg hfinal, if_neg hd]
          exact hended (hvisit.trans (if_neg (mt hdue.mp hd))) hkept
    | settled =>
      have hvisit := visitCase_settled (n := p) (s := e) hphase
      have hretention := retentionDue_iff (h := e.handleAt p) (s := e) hphase
      by_cases hr : e.retentionDue (e.handleAt p) c = true
      · exact (if_pos (hretention.mp hr)).symm ▸ hended (hvisit.trans (if_pos hr)) (noted_freeSlot (noted_refl e) p)
      · exact (if_neg (mt hretention.mpr hr)).symm ▸ hended (hvisit.trans (if_neg hr)) (noted_refl e)

end Sys2Proof.Machine

/-! The anchoring step, the injection of deltas (05_the_urgent_list_channel.md) and the offers
(06_restoration_arithmetic.md). -/

namespace Sys2Proof.Machine

/-! ### The anchoring step (R79, R80) -/

section
variable (c : CaseRecord)

/-- The window behind a RECORD anchor has a hole (R79). -/
def CaseRecord.HasHole : Prop :=
  c.anchor.source = .record ∧ (c.anchor.seq - c.window.base).toNat < 32 ∧
    ∃ i ≤ (c.anchor.seq - c.window.base).toNat, c.window.at i = none

/-- The window has passed a RECORD anchor (R79). -/
def CaseRecord.HasPassed : Prop := c.anchor.source = .record ∧ 32 ≤ (c.anchor.seq - c.window.base).toNat

theorem windowChecked_hole : (windowChecked c).hole = true ↔ c.flags.hole = true ∨ c.HasHole := by
  unfold windowChecked CaseRecord.HasHole
  cases c.anchor.source with
  | opening => simp
  | record =>
    dsimp only
    generalize (c.anchor.seq - c.window.base).toNat = d
    by_cases hd : d < 32
    · simp [hd]
    · simp [hd]

theorem windowChecked_windowPassed :
    (windowChecked c).windowPassed = true ↔ c.flags.windowPassed = true ∨ c.HasPassed := by
  unfold windowChecked CaseRecord.HasPassed
  cases c.anchor.source with
  | opening => simp
  | record =>
    dsimp only
    generalize (c.anchor.seq - c.window.base).toNat = d
    by_cases hd : d < 32
    · simp [hd, Nat.not_le.mpr hd]
    · simp [hd, Nat.le_of_not_lt hd]

/-- The checks set the three flags they are about alone. -/
theorem productChecked_eq (entry : Nat → Product) :
    productChecked entry c =
      { c.flags with
        hole := (windowChecked c).hole
        windowPassed := (windowChecked c).windowPassed
        unknownProduct := c.flags.unknownProduct || namesUnknown entry c } := by
  unfold productChecked windowChecked
  cases c.anchor.source with
  | opening => rfl
  | record =>
    dsimp only
    split_ifs <;> rfl

theorem namesUnknown_iff (entry : Nat → Product) :
    namesUnknown entry c = true ↔ ∃ k ∈ c.contracts, (entry k.2.product).kind = .none := by
  simp only [namesUnknown, List.any_eq_true, beq_iff_eq]

/-- A case is held by a holding flag, and anchored with its next offer otherwise (R79, R80, R104). -/
theorem anchored_eq (entry : Nat → Product) (p : Policy) :
    anchored entry p c =
      if (productChecked entry c).holding then { c with phase := .held, flags := productChecked entry c }
      else
        { c with
          phase := .anchored
          offerNumber := nextOffer c.offerNumber
          offer := some (computeOffer entry p (nextOffer c.offerNumber) c)
          flags := { productChecked entry c with
            lateCreditCapped := (productChecked entry c).lateCreditCapped || lateCreditCut c } } := rfl

/-- An offer changes none of the flags of the checks. -/
theorem anchored_flags (entry : Nat → Product) (p : Policy) :
    (anchored entry p c).flags.hole = (windowChecked c).hole ∧
      (anchored entry p c).flags.windowPassed = (windowChecked c).windowPassed ∧
      (anchored entry p c).flags.unknownProduct = (c.flags.unknownProduct || namesUnknown entry c) := by
  rw [anchored_eq, productChecked_eq]
  split_ifs <;> exact ⟨rfl, rfl, rfl⟩

end

/-- Settles O29: the checks decide whether the case is held. -/
theorem anchoringHoldsOrOffers : Obligations.AnchoringHoldsOrOffers := by
  unfold Obligations.AnchoringHoldsOrOffers
  intro entry p c d y hole passed unknown
  obtain ⟨hhole, hpassed, hunknown⟩ := anchored_flags c entry p
  refine ⟨hhole ▸ windowChecked_hole c, hpassed ▸ windowChecked_windowPassed c, ?_, ?_⟩
  · rw [hunknown, Bool.or_eq_true, namesUnknown_iff]
  · intro marked
    have hmarked : marked = productChecked entry c := by
      rw [productChecked_eq]
      simp only [marked, y, hhole, hpassed, hunknown]
    have hholding : (productChecked entry c).holding = true ↔
        c.flags.chainBreak = true ∨ y.flags.hole = true ∨ y.flags.windowPassed = true ∨ c.flags.bypassed = true ∨
          y.flags.unknownProduct = true := by
      simp only [← hmarked, marked, CaseFlags.holding, Bool.or_eq_true, or_assoc]
    have hy : y = anchored entry p c := rfl
    rw [anchored_eq] at hy
    rw [hmarked]
    by_cases hh : (productChecked entry c).holding = true
    · rw [if_pos (hholding.mp hh), hy, if_pos hh]
    · rw [if_neg (mt hholding.mpr hh), hy, if_neg hh, productChecked_eq]
      rfl

/-! ### The injection of a delta (R87 to R91) -/

/-- A delta that has been sent: the line has counted it, its version and epoch are the injector's, and its entry has
left the List Queue (R87, R89). -/
def State.deltaSent (d : Delta) (s : State) : State :=
  { s with
    station := { s.station with
      tx := .idle
      counters := { s.station.counters with inserted := min 4294967295 (s.station.counters.inserted + 1) } }
    injector := ⟨some (s.injector.epoch.getD d.epoch), d.version⟩
    listQueue := s.listQueue.eraseP (fun e => e.handle = d.handle ∧ e.kind = d.kind) }

theorem noted_injectVersion (d : Delta) (s : State) :
    Noted
      { s with
        station := s.station.insertedDone
        injector := ⟨some (s.injector.epoch.getD d.epoch), d.version⟩ }
      (injectVersion d { s with station := s.station.insertedDone }) :=
  noted_setInjector (noted_refl { s with station := s.station.insertedDone })
    ⟨some (s.injector.epoch.getD d.epoch), d.version⟩

theorem noted_deltaSent {d : Delta} {e : ListEntry} (s : State) (hh : e.handle = d.handle) (hk : e.kind = d.kind) :
    Noted (s.deltaSent d)
      ((injectVersion d { s with station := s.station.insertedDone }).doListOp (.remove e)) := by
  have h := noted_doListOp (noted_injectVersion d s) (.remove e)
  simp only [ListOp.apply, hh, hk] at h
  exact h

theorem addToCase_of_none {d : Delta} {cancelled : Bool} {s : State} (h : s.named d.handle = none) :
    addToCase d cancelled s = s := by
  simp only [addToCase, h]

/-- What an ADD injected does to its case. -/
theorem noted_addToCase {a b : State} {d : Delta} {cancelled : Bool} {c : CaseRecord} (h : Noted a b)
    (hn : a.named d.handle = some c) :
    Noted
      (if cancelled then
        { a.withCase d.handle.slot { c with listVersion := some d.version } with
          listQueue := a.listQueue ++ [⟨d.handle, .remove, false⟩] }
       else if c.tr ≤ a.horizon.h then
        a.withAnchored d.handle.slot { c with listVersion := some d.version, phase := .listed }
       else a.withCase d.handle.slot { c with listVersion := some d.version, phase := .listed })
      (addToCase d cancelled b) := by
  have hb : b.named d.handle = some c := by rw [h.1]; exact hn
  have hhorizon : b.horizon = a.horizon := by rw [h.1]
  simp only [addToCase, hb, listCase, hhorizon]
  cases cancelled with
  | true => exact noted_doListOp (noted_withCase h d.handle.slot _) (.append ⟨d.handle, .remove, false⟩)
  | false =>
    simp only [Bool.false_eq_true, if_false]
    split_ifs
    · exact noted_anchorCase h d.handle.slot _
    · exact noted_withCase h d.handle.slot _

/-- An ADD injected is one entry less of the List Queue, and one more list version. -/
theorem injectAdd_eq {d : Delta} (hk : d.kind = .add) (s : State) :
    ∃ b, Noted (s.deltaSent d) b ∧
      injectAdd d s = addToCase d ((s.listQueue.find? (fun e => e.handle = d.handle ∧ e.kind = .add)).any (·.cancelled)) b := by
  unfold injectAdd State.entryOf
  cases hfind : s.listQueue.find? (fun e => e.handle = d.handle ∧ e.kind = .add) with
  | some e =>
    have he := List.find?_some hfind
    simp only [decide_eq_true_eq] at he
    exact ⟨_, noted_deltaSent s he.1 (he.2.trans hk.symm), rfl⟩
  | none =>
    have hid : s.listQueue.eraseP (fun e => e.handle = d.handle ∧ e.kind = d.kind) = s.listQueue := by
      apply List.eraseP_of_forall_not
      rw [hk]
      exact List.find?_eq_none.mp hfind
    refine ⟨_, ?_, rfl⟩
    have hsent : s.deltaSent d =
        { s with
          station := s.station.insertedDone
          injector := ⟨some (s.injector.epoch.getD d.epoch), d.version⟩ } := by
      unfold State.deltaSent
      rw [hid]
      rfl
    rw [hsent]
    exact noted_injectVersion d s

theorem exec_addInjected {d : Delta} {s : State} (htx : s.station.tx = .delta d) (hk : d.kind = .add) :
    exec .addInjected s = .next (finish (injectAdd d s)) := by
  simp only [exec, execAddInjected, htx]
  exact event_next (by rw [hk]; rfl)

theorem exec_removeInjected {d : Delta} {s : State} (htx : s.station.tx = .delta d) (hk : d.kind = .remove) :
    exec .removeInjected s = .next (finish (injectRemove d s)) := by
  simp only [exec, execRemoveInjected, htx]
  exact event_next (by rw [hk]; rfl)

theorem noted_injectRemove {d : Delta} (hk : d.kind = .remove) (s : State) :
    Noted (if (s.named d.handle).isSome then (s.deltaSent d).freed d.handle.slot else s.deltaSent d)
      (injectRemove d s) := by
  have hsent := noted_deltaSent (d := d) (e := ⟨d.handle, .remove, false⟩) s rfl hk.symm
  unfold injectRemove
  dsimp only
  set b := (injectVersion d { s with station := s.station.insertedDone }).doListOp (.remove ⟨d.handle, .remove, false⟩)
  have hb : b.named d.handle = s.named d.handle := by rw [hsent.1]; rfl
  rw [hb]
  cases s.named d.handle with
  | none => exact hsent
  | some c => exact noted_freeSlot hsent d.handle.slot

/-- Settles O30: what the delta's beginning left, its end makes of the case of its handle. -/
theorem addAndRemoveInjected : Obligations.AddAndRemoveInjected := by
  unfold Obligations.AddAndRemoveInjected
  intro d s htx sent
  have hsent : sent = s.deltaSent d := rfl
  clear_value sent
  subst hsent
  cases hk : d.kind with
  | add =>
    obtain ⟨b, hnoted, heffect⟩ := injectAdd_eq hk s
    refine ⟨_, exec_addInjected htx hk, ?_⟩
    rw [heffect]
    cases hn : s.named d.handle with
    | none =>
      have hb : b.named d.handle = none := by rw [hnoted.1]; exact hn
      rw [addToCase_of_none hb]
      exact ended_finish hnoted
    | some c =>
      have hended := ended_finish (noted_addToCase
        (cancelled := (s.listQueue.find? (fun e => e.handle = d.handle ∧ e.kind = .add)).any (·.cancelled)) hnoted hn)
      rw [apply_ite State.ended, ite_apply, apply_ite State.ended, ite_apply] at hended
      exact hended
  | remove =>
    refine ⟨_, exec_removeInjected htx hk, ?_⟩
    have hended := ended_finish (noted_injectRemove hk s)
    rw [apply_ite State.ended, ite_apply] at hended
    exact hended

end Sys2Proof.Machine

/-! The offers of the Restoration Calculator (06_restoration_arithmetic.md, 6.3). -/

namespace Sys2Proof.Machine

/-! ### Fee and purse (R105, R109, R110) -/

theorem feeCollected_nonneg (p : Policy) (waived : Bool) (base : Int) : 0 ≤ feeCollected p waived base := by
  unfold feeCollected
  split_ifs <;> omega

theorem reportDay_eq (p : Policy) (tr : Nat) :
    reportDay p tr = if tr < p.serviceDayOffset then 0 else (tr - p.serviceDayOffset) / 86400 := by
  unfold reportDay
  by_cases h : tr < p.serviceDayOffset
  · rw [if_pos h, if_neg (Nat.not_le.mpr h)]
  · rw [if_neg h, if_pos (Nat.le_of_not_lt h)]

section
variable (p : Policy) (g : Int)

/-- What is cut above the ceiling is the excess, and what is filled below the floor the debt (R110). -/
theorem purseOf_balance :
    purseOf p g + (((g - p.purseCeiling).toNat : Nat) : Int) - (((-(p.overdraftLimit : Int) - g).toNat : Nat) : Int) = g := by
  unfold purseOf
  split_ifs <;> omega

theorem purseOf_above {p : Policy} {g : Int} (h : (p.purseCeiling : Int) < g) : purseOf p g = p.purseCeiling := if_pos h

theorem purseOf_between {p : Policy} {g : Int} (hlo : -(p.overdraftLimit : Int) ≤ g) (hhi : g ≤ p.purseCeiling) :
    purseOf p g = g := by
  rw [purseOf, if_neg (Int.not_lt.mpr hhi), if_neg (Int.not_lt.mpr hlo)]

theorem purseOf_below {p : Policy} {g : Int} (h : g < -(p.overdraftLimit : Int)) :
    purseOf p g = -(p.overdraftLimit : Int) := by
  rw [purseOf, if_neg (by omega), if_pos h]

end

/-- Settles O31: the gross value above the ceiling, below the floor, or between them. -/
theorem offerFeeAndPurse : Obligations.OfferFeeAndPurse := by
  unfold Obligations.OfferFeeAndPurse
  intro entry p number c o k od base g
  have hfee : (o.fee : Int) = feeCollected p c.feeWaived base := Int.toNat_of_nonneg (feeCollected_nonneg _ _ _)
  have hpurse : o.purse = purseOf p g := by
    show purseOf p (base - feeCollected p c.feeWaived base) = _
    rw [← hfee]
  have hexcess : o.excess = (g - k).toNat := by
    show (base - feeCollected p c.feeWaived base - k).toNat = _
    rw [← hfee]
  have hdebt : o.debt = (-od - g).toNat := by
    show (-od - (base - feeCollected p c.feeWaived base)).toNat = _
    rw [← hfee]
  have hceiling : o.ceilingClamped = decide (k < g) := by
    show decide (k < base - feeCollected p c.feeWaived base) = _
    rw [← hfee]
  have hfloor : o.floorClamped = decide (g < -od) := by
    show decide (base - feeCollected p c.feeWaived base < -od) = _
    rw [← hfee]
  have hk : 0 ≤ k := Int.natCast_nonneg _
  have hod : 0 ≤ od := Int.natCast_nonneg _
  refine ⟨rfl, reportDay_eq p c.tr, rfl, rfl, rfl, rfl, hfee, fun hhigh => ?_, fun hlo hhi => ?_, fun hlow => ?_, ?_⟩
  · rw [hpurse, hexcess, hdebt, hceiling, hfloor]
    exact ⟨purseOf_above hhigh, by omega, by omega, decide_eq_true hhigh, decide_eq_false (by omega)⟩
  · rw [hpurse, hexcess, hdebt, hceiling, hfloor]
    exact ⟨purseOf_between hlo hhi, by omega, by omega, decide_eq_false (by omega), decide_eq_false (by omega)⟩
  · rw [hpurse, hexcess, hdebt, hceiling, hfloor]
    exact ⟨purseOf_below hlow, by omega, by omega, decide_eq_false (by omega), decide_eq_true hlow⟩
  · rw [hpurse, hexcess, hdebt]
    exact purseOf_balance p g

/-! ### Contracts (R106 to R108) -/

/-- Every treatment is one of the four, so that each contract is counted once (R107). -/
theorem treatments_counted (ts : List Treatment) :
    (ts.filterMap Treatment.carried?).length + ts.countP Treatment.isConverted + ts.countP (fun t => t == .dropped) +
      ts.countP (fun t => t == .expired) = ts.length := by
  induction ts with
  | nil => rfl
  | cons t rest ih =>
    cases t <;> simp [List.filterMap_cons, List.countP_cons, Treatment.carried?, Treatment.isConverted] <;> omega

theorem convertCredit_of_treat {p : Policy} {dr : Nat} {e : Product} {slot : Nat} {k : Contract} :
    (treat p dr e slot k).credit =
      if e.kind != .none && extent dr e k != 0 && e.restore == .convert then convertCredit p dr e k else 0 := by
  unfold treat
  by_cases hkind : e.kind = .none
  · simp [hkind, Treatment.credit]
  · by_cases hextent : extent dr e k = 0
    · simp [hkind, hextent, Treatment.credit]
    · cases hrestore : e.restore <;> simp [hkind, hextent, Treatment.credit]

/-- The sum of the credits is that of the contracts converted (R108). -/
theorem conversionTotal_eq (p : Policy) (dr : Nat) (entry : Nat → Product) (cs : SMap Contract) :
    conversionTotal (cs.map (fun x => treat p dr (entry x.2.product) x.1 x.2)) =
      ((cs.filter (fun x =>
          (entry x.2.product).kind != .none && extent dr (entry x.2.product) x.2 != 0 &&
            (entry x.2.product).restore == .convert)).map
        (fun x => convertCredit p dr (entry x.2.product) x.2)).sum := by
  unfold conversionTotal
  induction cs with
  | nil => rfl
  | cons x rest ih =>
    rw [List.map_cons, List.map_cons, List.sum_cons, ih, convertCredit_of_treat, List.filter_cons]
    split_ifs
    · rw [List.map_cons, List.sum_cons]
    · rw [Nat.zero_add]

theorem extent_dated {dr : Nat} {e : Product} {k : Contract}
    (h : e.kind = .calendar ∨ (e.kind = .rolling ∧ k.validFrom.isSome = true)) :
    extent dr e k = min (datedExtent dr e k) e.total := by
  unfold extent rawExtent
  rcases h with h | ⟨h, hfrom⟩
  · rw [h]
  · rw [h]
    exact congrArg (min · e.total) (if_pos hfrom)

/-- A credit is cut down to a multiple of the refund step (R108). -/
theorem convertCredit_multiple {p : Policy} {dr : Nat} {e : Product} {k : Contract} (hstep : 1 ≤ p.refundStep)
    (htotal : 1 ≤ e.total) :
    ∃ w, p.refundStep ∣ w ∧ w * e.total ≤ k.price.getD e.listPrice * extent dr e k ∧
      k.price.getD e.listPrice * extent dr e k < (w + p.refundStep) * e.total ∧
      convertCredit p dr e k = w - e.convertFee := by
  set v := k.price.getD e.listPrice * extent dr e k with hv
  set q := v / e.total with hq
  refine ⟨q - q % p.refundStep, Nat.dvd_sub_mod q, ?_, ?_, rfl⟩
  · exact (Nat.mul_le_mul_right _ (Nat.sub_le _ _)).trans (Nat.div_mul_le_self v e.total)
  · have hmod : q % p.refundStep < p.refundStep := Nat.mod_lt _ hstep
    have hle : q + 1 ≤ q - q % p.refundStep + p.refundStep := by
      have := Nat.mod_le q p.refundStep
      omega
    calc v < (q + 1) * e.total := by
          rw [Nat.add_mul, Nat.one_mul]
          exact Nat.lt_div_mul_add htotal
      _ ≤ _ := Nat.mul_le_mul_right _ hle

/-- Settles O32: the treatments of the contracts, the extents by kind, the table of treatments and the credit. -/
theorem contractsInOffers : Obligations.ContractsInOffers := by
  unfold Obligations.ContractsInOffers
  refine ⟨fun entry p number c => ?_, fun dr e k => ⟨Nat.min_le_right _ _, fun h => ?_, fun h hfrom => ?_, fun h => ?_⟩,
    fun p dr e slot k => ?_, fun p dr e k => convertCredit_multiple⟩
  · intro o treated
    have hcounted := treatments_counted treated
    refine ⟨?_, ?_, ?_, ?_, hcounted.trans (List.length_map _), conversionTotal_eq p o.reportDay entry c.contracts⟩
    · exact List.filterMap_congr fun t _ => by cases t <;> rfl
    · exact List.countP_congr fun t _ => by cases t <;> rfl
    · exact List.countP_congr fun t _ => by simp
    · exact List.countP_congr fun t _ => by simp
  · simp only [extent, rawExtent, h]
  · simp [extent, rawExtent, h, hfrom]
  · intro start stop
    rw [extent_dated h]
    have hspan : datedExtent dr e k = (stop - start + 1).toNat := by
      simp only [datedExtent, daySpan, start, stop]
      cases k.validFrom <;> cases k.validTo <;> rfl
    rw [hspan]
    omega
  · unfold treat
    cases e.restore <;> rfl

end Sys2Proof.Machine

/-! Binding, settlement and release (07_binding_settlement_and_release.md), and the records of the Emission List. -/

namespace Sys2Proof.Machine

/-! ### BIND CASE, FORCE PROGRESS and CLOSE CASE -/

section
variable {c : Control} {bs : List Byte} {x : CaseRecord} {s : State}

theorem bindCase_of_named (hp : c.params = some bs) (hl : bs.length = 13) (hn : s.named (readHandle bs) = some x) :
    bindCase c s =
      if fieldAt 3 6 bs = 0 then refuse .badField s
      else if x.phase ≠ .anchored then refuse .wrongPhase s
      else if (lookup (fieldAt 3 6 bs) s).isSome then refuse .duplicateCase s
      else if x.flags.tallyFinal then
        accept (settleCase (readHandle bs).slot (boundTo (fieldAt 3 6 bs) (fieldAt 9 4 bs) x) s)
          (.bound (readHandle bs) .settled (some s.clock.time))
      else
        accept (s.setCase (readHandle bs).slot (boundTo (fieldAt 3 6 bs) (fieldAt 9 4 bs) x))
          (.bound (readHandle bs) .bound none) := by
  simp only [bindCase, hp, ofLength_some hl, withHandle_of_named _ hn]

theorem closeCase_of_named (hp : c.params = some bs) (hl : bs.length = 3) (hn : s.named (readHandle bs) = some x) :
    closeCase c s =
      if x.phase ≠ .settled then refuse .wrongPhase s
      else if (s.emission (readHandle bs) .settlement).isSome then refuse .emissionPending s
      else accept (freeSlot (readHandle bs).slot s) (.closed (readHandle bs)) := by
  simp only [closeCase, hp, ofLength_some hl, withHandle_of_named _ hn, State.emitted]
  by_cases hphase : x.phase = .settled
  · obtain hsent | ⟨e, hsent⟩ := (s.emission (readHandle bs) .settlement).eq_none_or_eq_some <;> simp [hphase, hsent]
  · simp [hphase]

theorem forceProgress_listed (hp : c.params = some bs) (hl : bs.length = 3) (hn : s.named (readHandle bs) = some x)
    (hphase : x.phase = .stalled .listed) :
    forceProgress c s =
      accept (anchorCase (readHandle bs).slot (forcedWith (s.feedsBehindTime x.tr) x) s)
        (.forcedAnchor (readHandle bs)
          (anchored s.productAt s.policy (forcedWith (s.feedsBehindTime x.tr) x)).phase
          (anchored s.productAt s.policy (forcedWith (s.feedsBehindTime x.tr) x)).excluded
          (anchored s.productAt s.policy (forcedWith (s.feedsBehindTime x.tr) x)).offerNumber) := by
  simp only [forceProgress, hp, ofLength_some hl, withHandle_of_named _ hn, hphase]

theorem forceProgress_bound (hp : c.params = some bs) (hl : bs.length = 3) (hn : s.named (readHandle bs) = some x)
    (hphase : x.phase = .stalled .bound) :
    forceProgress c s =
      accept
        (settleCase (readHandle bs).slot (forcedWith (s.feedsBehindVersion (x.listVersion.getD 0)) x) s)
        (.forcedSettle (readHandle bs) .settled (s.feedsBehindVersion (x.listVersion.getD 0)) (some s.clock.time)) := by
  simp only [forceProgress, hp, ofLength_some hl, withHandle_of_named _ hn, hphase]

theorem forceProgress_other (hp : c.params = some bs) (hl : bs.length = 3) (hn : s.named (readHandle bs) = some x)
    (hphase : ∀ p, x.phase ≠ .stalled p) : forceProgress c s = refuse .wrongPhase s := by
  simp only [forceProgress, hp, ofLength_some hl, withHandle_of_named _ hn]
  cases h : x.phase with
  | stalled p => exact absurd h (hphase p)
  | opening | listed | anchored | held | bound | settled | voiding => rfl

end

/-- The ACTIVE feeds with a property, counted among all the feed entries. -/
theorem countP_activeFeeds (q : Feed → Bool) (s : State) :
    s.activeFeeds.countP q = s.feeds.countP (fun e => e.2.active && q e.2) := by
  rw [State.activeFeeds, List.countP_filter, List.countP_map]
  exact List.countP_congr fun e _ => by simp [and_comm]

/-- The anchoring step keeps the count of excluded feeds. -/
theorem anchored_excluded (entry : Nat → Product) (p : Policy) (c : CaseRecord) :
    (anchored entry p c).excluded = c.excluded := by
  rw [anchored_eq]
  split_ifs <;> rfl

/-- Settles O36: the three commands by the phase of their case. -/
theorem bindForceAndClose : Obligations.BindForceAndClose := by
  unfold Obligations.BindForceAndClose
  refine ⟨?_, ?_, ?_⟩ <;> rintro bs h x c s hin hp hl rfl hn
  · have hown := bindCase_of_named (s := s.taken) hp hl hn
    refine next_ite (fun hcard => ?_) fun hcard => next_ite (fun hphase => ?_) fun hphase =>
      next_ite (fun hdup => ?_) fun hdup => next_ite (fun hfinal => ?_) fun hfinal => ?_
    · exact refused_of_own hin (by decide) (hown.trans (if_pos hcard))
    · exact refused_of_own hin (by decide) (hown.trans ((if_neg hcard).trans (if_pos hphase)))
    · exact refused_of_own hin (by decide) (hown.trans ((if_neg hcard).trans ((if_neg hphase).trans (if_pos hdup))))
    · rw [if_neg hcard, if_neg hphase] at hown
      exact accepted_of_own hin (by decide) (hown.trans ((if_neg hdup).trans (if_pos hfinal)))
        (noted_settleCase (noted_refl s.taken) _ _) rfl
    · rw [if_neg hcard, if_neg hphase] at hown
      exact accepted_of_own hin (by decide) (hown.trans ((if_neg hdup).trans (if_neg hfinal)))
        (noted_withCase (noted_refl s.taken) _ _) rfl
  · have hwrong (hphase : ∀ p, x.phase ≠ .stalled p) :=
      refused_of_own hin (by decide) (forceProgress_other (s := s.taken) hp hl hn hphase)
    cases hphase : x.phase with
    | stalled p =>
      cases p with
      | listed =>
        have hown := forceProgress_listed (s := s.taken) hp hl hn hphase
        have hcount : s.taken.feedsBehindTime x.tr =
            s.feeds.countP (fun e => e.2.active && decide (e.2.sweep < x.tr)) := countP_activeFeeds _ s
        rw [anchored_excluded, hcount] at hown
        exact accepted_of_own hin (by decide) hown (noted_anchorCase (noted_refl s.taken) _ _)
          (by unfold State.withAnchored; dsimp only; split_ifs <;> rfl)
      | bound =>
        have hown := forceProgress_bound (s := s.taken) hp hl hn hphase
        have hcount : s.taken.feedsBehindVersion (x.listVersion.getD 0) =
            s.feeds.countP (fun e => e.2.active && decide (e.2.cleared < x.listVersion.getD 0)) :=
          countP_activeFeeds _ s
        rw [hcount] at hown
        exact accepted_of_own hin (by decide) hown (noted_settleCase (noted_refl s.taken) _ _) rfl
    | opening | listed | anchored | held | bound | settled | voiding => exact hwrong (by simp [hphase])
  · have hown := closeCase_of_named (s := s.taken) hp hl hn
    refine next_ite (fun hphase => ?_) fun hphase => next_ite (fun hsent => ?_) fun hsent => ?_
    · exact refused_of_own hin (by decide) (hown.trans (if_pos hphase))
    · exact refused_of_own hin (by decide) (hown.trans ((if_neg hphase).trans (if_pos hsent)))
    · exact accepted_of_own hin (by decide) (hown.trans ((if_neg hphase).trans (if_neg hsent)))
        (noted_freeSlot (noted_refl s.taken) _) rfl

/-! ### The records of the Emission List (R116, R121, R129) -/

theorem exec_emissionRecordCompletes {h : Handle} {k : EmitKind} {b : EmitBody} {held : Bool} {s : State}
    (htx : s.centre.tx = .emission h k b held) :
    exec .emissionRecordCompletes s = .next (finish (emissionCompletes h k held s)) := by
  simp only [exec, execEmissionRecordCompletes, htx]
  exact event_next rfl

/-- The Emission List once a record of it has been sent (R129). -/
def State.emissionsAfter (h : Handle) (k : EmitKind) (held : Bool) (s : State) : List EmitEntry :=
  if held = false then s.emissions
  else if (s.emission h k).any (·.renewed) then
    s.emissions.map (fun e => if e.handle = h ∧ e.kind = k then { e with renewed := false } else e)
  else s.emissions.eraseP (fun e => e.handle = h ∧ e.kind = k)

theorem noted_emissionCompletes (h : Handle) (k : EmitKind) (held : Bool) (s : State) :
    Noted { s with centre := s.centre.insertedDone, emissions := s.emissionsAfter h k held }
      (emissionCompletes h k held s) := by
  unfold emissionCompletes State.emissionsAfter
  cases held with
  | false => exact noted_refl _
  | true =>
    simp only [if_true, Bool.true_eq_false, if_false]
    cases hfind : s.emission h k with
    | none =>
      have hid : s.emissions.eraseP (fun e => e.handle = h ∧ e.kind = k) = s.emissions :=
        List.eraseP_of_forall_not (List.find?_eq_none.mp hfind)
      simp only [Option.any_none, Bool.false_eq_true, if_false, hid]
      exact noted_refl _
    | some e =>
      have he := List.find?_some hfind
      simp only [decide_eq_true_eq] at he
      obtain ⟨rfl, rfl⟩ := he
      simp only [Option.any_some]
      split_ifs
      · exact noted_doEmitOp (noted_refl { s with centre := s.centre.insertedDone }) (.clearMark e)
      · exact noted_doEmitOp (noted_refl { s with centre := s.centre.insertedDone }) (.remove e)

/-- Settles O37: the record by its kind, and the list by whether the entry stands and is renewed. -/
theorem emissionsAreBuiltAndComplete : Obligations.EmissionsAreBuiltAndComplete := by
  unfold Obligations.EmissionsAreBuiltAndComplete
  refine ⟨fun e x s hn => ?_, fun h k b held s htx => ?_⟩
  · cases hk : e.kind <;> simp only [buildEmission, hn, hk]
  · exact ⟨_, exec_emissionRecordCompletes htx, ended_finish (noted_emissionCompletes h k held s)⟩

end Sys2Proof.Machine

/-! The management commands (08_management_commands.md): what is checked of every command, and the commands on the
engine. -/

namespace Sys2Proof.Machine

/-! ### A command on either role (R134, R142) -/

/-- The state from which a command is executed: its record has been taken, and a load session is over but for PRODUCT
DATA (R145). -/
def State.afterTaking (code : Byte) (s : State) : State := endSession (code != codeProductData) (takeControl s)

theorem afterTaking_active {code : Byte} {s : State} (h : s.isActive = true) :
    s.afterTaking code = { s.taken with cu := if code = 0x23 then s.cu else s.taken.cu } := by
  have ht := taken_eq h
  unfold State.afterTaking
  by_cases hcode : code = 0x23
  · rw [show (code != codeProductData) = false by rw [hcode]; rfl, if_pos hcode, ← ht]
    rfl
  · rw [show (code != codeProductData) = true from bne_iff_ne.mpr hcode, if_neg hcode, ht]

theorem afterTaking_standby {code : Byte} {s : State} (h : s.isActive = false) :
    s.afterTaking code = { s.takenStandby with cu := if code = 0x23 then s.cu else s.takenStandby.cu } := by
  unfold State.afterTaking endSession takeControl
  simp only [h, Bool.false_eq_true, if_false]
  by_cases hcode : code = 0x23
  · rw [show (code != codeProductData) = false by rw [hcode]; rfl, if_pos hcode]
    rfl
  · rw [show (code != codeProductData) = true from bne_iff_ne.mpr hcode, if_neg hcode]
    rfl

theorem role_of_active {s : State} (h : s.isActive = true) : s.mirror.role = .active := by
  simpa [State.isActive] using h

theorem runCommand_eq {code : Byte} {adm : Admission} {busy : Bool} {own : Control → State → Executed} {c : Control}
    {s : State} (hcontrol : s.control = some c) (hfault : c.codeFault = none) (hcode : c.code = code)
    (htakes : s.takesCommand = true) :
    runCommand code adm busy own s = .next (finish (respond c (executed adm busy own c (s.afterTaking code)))) := by
  simp only [runCommand, hcontrol]
  exact event_next (by simp [State.commandReady, hfault, hcode, htakes])

/-- A refusal leaves the state from which the command was executed, and its RESPONSE (R132, R133). -/
theorem refused_respond (c : Control) (why : Reason) (e : State) :
    if e.isActive then e.answered c (.reject why) (finish (respond c (refuse why e)))
    else e.relayed c (.reject why) (finish (respond c (refuse why e))) := by
  cases h : e.isActive with
  | true => exact answered_respond (role_of_active h) (noted_refl e)
  | false => exact relayed_respond (role_of_standby h)

/-- What a command leaves that the common conditions refuse. -/
theorem refused_of_common {code : Byte} {adm : Admission} {busy : Bool} {own : Control → State → Executed} {c : Control}
    {s : State} {why : Reason} (hcontrol : s.control = some c) (hfault : c.codeFault = none) (hcode : c.code = code)
    (htakes : s.takesCommand = true) (hwhy : commonFault adm busy c s = some why) :
    ∃ t, runCommand code adm busy own s = .next t ∧
      if s.isActive then
        ({ s.taken with cu := if code = 0x23 then s.cu else s.taken.cu } : State).answered c (.reject why) t
      else
        ({ s.takenStandby with cu := if code = 0x23 then s.cu else s.takenStandby.cu } : State).relayed c
          (.reject why) t := by
  refine ⟨_, runCommand_eq hcontrol hfault hcode htakes, ?_⟩
  have htaken : commonFault adm busy c (s.afterTaking code) = some why := by
    rw [← hwhy]
    rfl
  have h := refused_respond c why (s.afterTaking code)
  rw [executed, htaken]
  rw [show (s.afterTaking code).isActive = s.isActive from rfl] at h
  cases hactive : s.isActive with
  | true =>
    rw [hactive, if_pos rfl] at h
    rw [← afterTaking_active hactive]
    exact h
  | false =>
    rw [hactive, if_neg (by decide)] at h
    rw [← afterTaking_standby hactive]
    exact h

/-- A command in hand on a STANDBY is executed on the state from which its record has been taken. -/
theorem relayed_of_own {code : Byte} {adm : Admission} {busy : Bool} {own : Control → State → Executed} {c : Control}
    {s e : State} {v : Verdict} (h : s.standbyInHand code c) (hcode : code ≠ codeProductData)
    (hadm : adm.fault false = none) (hbusy : busy = true → s.cu.busy = none)
    (hown : own c s.takenStandby = ⟨e, none, v⟩) (hrole : e.mirror.role = s.mirror.role) :
    ∃ t, runCommand code adm busy own s = .next t ∧ e.relayed c v t := by
  obtain ⟨hcontrol, hfault, hcode', htarget, htakes, hactive⟩ := h
  have htaken : s.afterTaking code = s.takenStandby := by
    rw [afterTaking_standby hactive, if_neg (show ¬code = 0x23 from hcode)]
  have hcommon : commonFault adm busy c s.takenStandby = none := by
    have hfree : (busy && s.takenStandby.cu.busy.isSome) = false := by
      cases busy with
      | false => rfl
      | true => rw [show s.takenStandby.cu.busy = none from hbusy rfl]; rfl
    rw [commonFault, if_neg (by omega), show s.takenStandby.isActive = false from hactive, hadm]
    simp only [hfree, Bool.false_eq_true, if_false]
  refine ⟨_, runCommand_eq hcontrol hfault hcode' htakes, ?_⟩
  rw [htaken, executed, hcommon, hown]
  exact relayed_respond (hrole.trans (role_of_standby hactive))

/-! ### The catalogue (R134, R139, R142) -/

/-- Each command of the catalogue runs with the code, the roles and the kind that the catalogue gives it. -/
theorem catalogue_runs :
    ∀ x ∈ catalogue, ∀ s, ∃ own, exec x.1 s = runCommand x.2.1 x.2.2.1 x.2.2.2 own s := by
  simp only [catalogue, List.forall_mem_cons]
  exact ⟨fun _ => ⟨openCase, rfl⟩, fun _ => ⟨cancelCase, rfl⟩, fun _ => ⟨acceptCase, rfl⟩, fun _ => ⟨bindCase, rfl⟩,
    fun _ => ⟨forceProgress, rfl⟩, fun _ => ⟨closeCase, rfl⟩, fun _ => ⟨readCase, rfl⟩, fun _ => ⟨admitFeed, rfl⟩,
    fun _ => ⟨retireFeed, rfl⟩, fun _ => ⟨readFeed, rfl⟩, fun _ => ⟨setPolicyCommand, rfl⟩,
    fun _ => ⟨readPolicyCommand, rfl⟩, fun _ => ⟨beginLoad, rfl⟩, fun _ => ⟨productData, rfl⟩,
    fun _ => ⟨readProduct, rfl⟩, fun _ => ⟨setMask, rfl⟩, fun _ => ⟨clearNotices, rfl⟩, fun _ => ⟨setModeCommand, rfl⟩,
    fun s => ⟨readStatus s.cu.session, rfl⟩, fun _ => ⟨engineReset, rfl⟩, fun _ => ⟨exportCases, rfl⟩,
    fun _ => ⟨resyncPartner, rfl⟩, fun _ => ⟨takeover, rfl⟩, fun _ => ⟨forcedTakeover, rfl⟩, by simp⟩

/-- Settles O39: the first of the common conditions that fails refuses the command. -/
theorem commonConditionsInOrder : Obligations.CommonConditionsInOrder := by
  unfold Obligations.CommonConditionsInOrder
  intro i code adm busy c s hmem hcontrol hfault hcode htakes refused
  obtain ⟨own, hexec⟩ := catalogue_runs _ hmem s
  have hrefused {why : Reason} (hwhy : commonFault adm busy c s = some why) : refused why := by
    simp only [refused, hexec]
    exact refused_of_common hcontrol hfault hcode htakes hwhy
  refine ⟨fun htarget => hrefused (if_pos htarget), fun htarget hadm hactive => hrefused ?_,
    fun htarget hadm hactive => hrefused ?_, fun htarget hbusy hheld hadm => hrefused ?_⟩
  · rw [commonFault, if_neg (by omega), hadm, hactive]
    rfl
  · rw [commonFault, if_neg (by omega), hadm, hactive]
    rfl
  · have hfree : adm.fault s.isActive = none := by
      cases hactive : s.isActive with
      | true => simp only [hactive, if_true] at hadm; rw [hadm]; rfl
      | false => simp only [hactive, Bool.false_eq_true, if_false] at hadm; rw [hadm]; rfl
    rw [commonFault, if_neg (by omega), hfree]
    simp only [hbusy, hheld, Bool.and_self, if_true]

/-! ### The code checks (R134) -/

theorem exec_controlCodeReject {c : Control} {why : Reason} {s : State} (hcontrol : s.control = some c)
    (hfault : c.codeFault = some why) (htakes : s.takesCommand = true) :
    exec .controlCodeReject s = .next (finish (respond c (refuse why (endSession true (takeControl s))))) := by
  simp only [exec, execControlCodeReject, hcontrol, hfault]
  exact event_next htakes

/-- A record that fails a code check is refused, on either role (R134). -/
theorem codeReject_refuses {c : Control} {why : Reason} {s : State} (hcontrol : s.control = some c)
    (hfault : c.codeFault = some why) (htakes : s.takesCommand = true) :
    ∃ t, exec .controlCodeReject s = .next t ∧
      if s.isActive then s.taken.answered c (.reject why) t else s.takenStandby.relayed c (.reject why) t := by
  refine ⟨_, exec_controlCodeReject hcontrol hfault htakes, ?_⟩
  have h := refused_respond c why (endSession true (takeControl s))
  rw [show (endSession true (takeControl s)).isActive = s.isActive from rfl] at h
  cases hactive : s.isActive with
  | true =>
    rw [hactive, if_pos rfl, taken_eq hactive] at h
    rw [if_pos rfl, taken_eq hactive]
    exact h
  | false =>
    have htaken : endSession true (takeControl s) = s.takenStandby := afterTaking_standby (code := 0) hactive
    rw [hactive, if_neg (by decide), htaken] at h
    rw [if_neg (by decide), htaken]
    exact h

theorem mem_knownCodes {code : Byte} : code ∈ knownCodes ↔ ∃ x ∈ catalogue, x.2.1 = code := by
  rw [show knownCodes = catalogue.map (·.2.1) from rfl, List.mem_map]

theorem codeFault_of_header (pair target code complement : Byte) (rest : List Byte) :
    (Control.ofBody (pair :: target :: code :: complement :: rest)).codeFault =
      if complement ≠ ~~~code then some .codeMismatch
      else if (∃ x ∈ catalogue, x.2.1 = code) then none
      else some .unknownCommand := by
  have hcomplement : (some complement ≠ some (~~~code)) ↔ complement ≠ ~~~code := by simp
  simp only [Control.codeFault, Control.ofBody, List.drop_succ_cons, List.drop_zero, List.head?_cons, List.headD_cons,
    hcomplement, mem_knownCodes, ite_not]

/-! ### The lengths of the bodies (R179) -/

/-- A command that takes `n` bytes of parameters is refused with a body of another length. -/
def Takes (i : Instr) (code : Byte) (adm : Admission) (busy : Bool) (n : Nat) : Prop :=
  ∀ s, ∃ own, exec i s = runCommand code adm busy own s ∧
    ∀ (c : Control) (e : State), ofLength n c.params = none → own c e = refuse .badField e

theorem takes_commands :
    (Takes .cancelCase 0x02 .activeOnly false 3 ∧ Takes .acceptCase 0x03 .activeOnly false 4 ∧
      Takes .bindCase 0x04 .activeOnly false 13 ∧ Takes .forceProgress 0x05 .activeOnly false 3 ∧
      Takes .closeCase 0x06 .activeOnly false 3 ∧ Takes .admitFeed 0x10 .activeOnly false 5 ∧
      Takes .retireFeed 0x11 .activeOnly false 1 ∧ Takes .readFeed 0x12 .activeOnly false 1) ∧
    (Takes .readPolicy 0x21 .activeOnly false 0 ∧ Takes .beginProductLoad 0x22 .activeOnly false 4 ∧
      Takes .readProduct 0x24 .activeOnly false 2 ∧ Takes .setMode 0x38 .activeOnly false 1) ∧
    (Takes .readStatus 0x39 .either false 0 ∧ Takes .engineReset 0x3A .either false 0 ∧
      Takes .exportCases 0x40 .activeOnly true 6 ∧ Takes .resyncPartner 0x41 .activeOnly true 0 ∧
      Takes .takeover 0x42 .standbyOnly true 0 ∧ Takes .forcedTakeover 0x43 .standbyOnly true 0) :=
  ⟨⟨fun _ => ⟨cancelCase, rfl, fun _ _ h => by rw [cancelCase, h]⟩,
    fun _ => ⟨acceptCase, rfl, fun _ _ h => by rw [acceptCase, h]⟩,
    fun _ => ⟨bindCase, rfl, fun _ _ h => by rw [bindCase, h]⟩,
    fun _ => ⟨forceProgress, rfl, fun _ _ h => by rw [forceProgress, h]⟩,
    fun _ => ⟨closeCase, rfl, fun _ _ h => by rw [closeCase, h]⟩,
    fun _ => ⟨admitFeed, rfl, fun _ _ h => by rw [admitFeed, h]⟩,
    fun _ => ⟨retireFeed, rfl, fun _ _ h => by rw [retireFeed, h]⟩,
    fun _ => ⟨readFeed, rfl, fun _ _ h => by rw [readFeed, h]⟩⟩,
   ⟨fun _ => ⟨readPolicyCommand, rfl, fun _ _ h => by rw [readPolicyCommand, h]⟩,
    fun _ => ⟨beginLoad, rfl, fun _ _ h => by rw [beginLoad, h]⟩,
    fun _ => ⟨readProduct, rfl, fun _ _ h => by rw [readProduct, h]⟩,
    fun _ => ⟨setModeCommand, rfl, fun _ _ h => by rw [setModeCommand, h]; rfl⟩⟩,
   ⟨fun s => ⟨readStatus s.cu.session, rfl, fun _ _ h => by rw [readStatus, h]⟩,
    fun _ => ⟨engineReset, rfl, fun _ _ h => by rw [engineReset, h]⟩,
    fun _ => ⟨exportCases, rfl, fun _ _ h => by rw [exportCases, h]⟩,
    fun _ => ⟨resyncPartner, rfl, fun _ _ h => by rw [resyncPartner, h]⟩,
    fun _ => ⟨takeover, rfl, fun _ _ h => by rw [takeover, h]⟩,
    fun _ => ⟨forcedTakeover, rfl, fun _ _ h => by rw [forcedTakeover, h]⟩⟩⟩

theorem ofLength_none {n : Nat} {p : Option (List Byte)} (h : ∀ bs, p = some bs → bs.length ≠ n) : ofLength n p = none := by
  cases p with
  | none => rfl
  | some bs => simp [ofLength, h bs rfl]

section
variable {i : Instr} {code : Byte} {adm : Admission} {busy : Bool} {n : Nat} {c : Control} {s : State}

theorem Takes.refused (h : Takes i code adm busy n) (hin : s.inHand code c) (hcode : code ≠ codeProductData)
    (hadm : adm.fault true = none) (hbusy : busy = true → s.cu.busy = none)
    (hlength : ofLength n c.params = none) :
    ∃ t, exec i s = .next t ∧ s.taken.answered c (.reject .badField) t := by
  obtain ⟨own, hexec, hown⟩ := h s
  have hrole : s.mirror.role = .active := inHand_role hin
  rw [hexec]
  exact answers_taken hin hcode hadm hbusy (hown c s.taken hlength) (noted_refl _) hrole

theorem Takes.refusedStandby (h : Takes i code adm busy n) (hin : s.standbyInHand code c) (hcode : code ≠ codeProductData)
    (hadm : adm.fault false = none) (hbusy : busy = true → s.cu.busy = none)
    (hlength : ofLength n c.params = none) :
    ∃ t, exec i s = .next t ∧ s.takenStandby.relayed c (.reject .badField) t := by
  obtain ⟨own, hexec, hown⟩ := h s
  rw [hexec]
  exact relayed_of_own hin hcode hadm hbusy (hown c s.takenStandby hlength) rfl

end

/-- A SET POLICY is read where its length is that of the settings its presence field names (R102). -/
theorem readPolicy_of_length {p : Option (List Byte)}
    (h : ∀ bs, p = some bs →
      bs.length < 2 ∨
        bs.length ≠ 2 + (([3, 3, 3, 2, 3, 1, 1, 2, 1] : List Nat).mapIdx
          (fun i size => if (fieldAt 0 2 bs).testBit i then size else 0)).sum) : readPolicy p = none := by
  cases p with
  | none => rfl
  | some bs =>
    have hbs := h bs rfl
    simp only [List.mapIdx_cons, List.mapIdx_nil, List.sum_cons, List.sum_nil] at hbs
    simp only [readPolicy, Option.bind_some, BitVec.getLsbD_ofNat]
    rw [if_neg]
    simp only [Nat.reduceLT, decide_true, Bool.true_and, not_and]
    intro hlen heq
    refine hbs.elim (fun hlt => absurd hlen (Nat.not_le.mpr hlt)) fun hne => hne ?_
    rw [heq]
    simp only [Nat.zero_add, Nat.reduceAdd, Nat.add_assoc, Nat.add_zero]

theorem readProducts_of_length {p : Option (List Byte)}
    (h : ∀ bs, p = some bs → fieldAt 0 1 bs = 0 ∨ 8 < fieldAt 0 1 bs ∨ bs.length ≠ 1 + 10 * fieldAt 0 1 bs) :
    readProducts p = none := by
  cases p with
  | none => rfl
  | some bs =>
    have hbs := h bs rfl
    simp only [readProducts, Option.bind_some]
    rw [if_neg]
    omega

theorem readCaseName_of_length {p : Option (List Byte)}
    (h : ∀ bs, p = some bs → ¬(bs.length = 4 ∧ bs.head? = some 0) ∧ ¬(bs.length = 7 ∧ bs.head? = some 1)) :
    readCaseName p = none := by
  cases p with
  | none => rfl
  | some bs =>
    cases bs with
    | nil => rfl
    | cons sel rest =>
      obtain ⟨hhandle, hcard⟩ := h _ rfl
      simp only [List.length_cons, List.head?_cons, Option.some.injEq, Nat.reduceEqDiff] at hhandle hcard
      simp only [readCaseName, Option.bind_some]
      rw [if_neg fun hc => hhandle ⟨hc.2, hc.1⟩, if_neg fun hc => hcard ⟨hc.2, hc.1⟩]

/-- Settles O38: the code checks, and each command with a body that does not suit it. -/
theorem codesAndLengthsAreChecked : Obligations.CodesAndLengthsAreChecked := by
  unfold Obligations.CodesAndLengthsAreChecked
  refine ⟨fun c why s => codeReject_refuses,
    fun pair target code complement rest => ⟨rfl, rfl, rfl, rfl, rfl, codeFault_of_header _ _ _ _ _⟩,
    fun i code n c s hmem hin hbusy hlength => ?_, fun i code c s hmem hin hbusy hparams => ?_,
    fun c s hin hlength => ?_, fun c s hin hlength => ?_, fun c s hin hlength => ?_⟩
  · have hnone := ofLength_none hlength
    obtain ⟨⟨hcancel, haccept, hbind, hforce, hclose, hadmit, hretire, hread⟩, ⟨hpolicy, hload, hproduct, hmode⟩,
      hstatus, hreset, hexport, hresync, -⟩ := takes_commands
    simp only [List.mem_cons, Prod.mk.injEq, List.not_mem_nil, or_false] at hmem
    rcases hmem with ⟨rfl, rfl, rfl⟩ | ⟨rfl, rfl, rfl⟩ | ⟨rfl, rfl, rfl⟩ | ⟨rfl, rfl, rfl⟩ | ⟨rfl, rfl, rfl⟩ |
      ⟨rfl, rfl, rfl⟩ | ⟨rfl, rfl, rfl⟩ | ⟨rfl, rfl, rfl⟩ | ⟨rfl, rfl, rfl⟩ | ⟨rfl, rfl, rfl⟩ | ⟨rfl, rfl, rfl⟩ |
      ⟨rfl, rfl, rfl⟩ | ⟨rfl, rfl, rfl⟩ | ⟨rfl, rfl, rfl⟩ | ⟨rfl, rfl, rfl⟩ | ⟨rfl, rfl, rfl⟩
    · exact hcancel.refused hin (by decide) rfl nofun hnone
    · exact haccept.refused hin (by decide) rfl nofun hnone
    · exact hbind.refused hin (by decide) rfl nofun hnone
    · exact hforce.refused hin (by decide) rfl nofun hnone
    · exact hclose.refused hin (by decide) rfl nofun hnone
    · exact hadmit.refused hin (by decide) rfl nofun hnone
    · exact hretire.refused hin (by decide) rfl nofun hnone
    · exact hread.refused hin (by decide) rfl nofun hnone
    · exact hpolicy.refused hin (by decide) rfl nofun hnone
    · exact hload.refused hin (by decide) rfl nofun hnone
    · exact hproduct.refused hin (by decide) rfl nofun hnone
    · exact hmode.refused hin (by decide) rfl nofun hnone
    · exact hstatus.refused hin (by decide) rfl nofun hnone
    · exact hreset.refused hin (by decide) rfl nofun hnone
    · exact hexport.refused hin (by decide) rfl (fun _ => hbusy (.inl rfl)) hnone
    · exact hresync.refused hin (by decide) rfl (fun _ => hbusy (.inr rfl)) hnone
  · have hnone : ofLength 0 c.params = none :=
      ofLength_none fun bs hbs hlen => hparams (by rw [hbs, List.eq_nil_of_length_eq_zero hlen])
    obtain ⟨-, -, hstatus, hreset, -, -, htakeover, hforced⟩ := takes_commands
    simp only [List.mem_cons, Prod.mk.injEq, List.not_mem_nil, or_false] at hmem
    rcases hmem with ⟨rfl, rfl⟩ | ⟨rfl, rfl⟩ | ⟨rfl, rfl⟩ | ⟨rfl, rfl⟩
    · exact hstatus.refusedStandby hin (by decide) rfl nofun hnone
    · exact hreset.refusedStandby hin (by decide) rfl nofun hnone
    · exact htakeover.refusedStandby hin (by decide) rfl (fun _ => hbusy (.inl rfl)) hnone
    · exact hforced.refusedStandby hin (by decide) rfl (fun _ => hbusy (.inr rfl)) hnone
  · refine refused_of_own hin (by decide) ?_
    rw [setPolicyCommand, readPolicy_of_length hlength]
  · have hrole : s.mirror.role = .active := inHand_role hin
    have hactive : s.isActive = true := hin.2.2.2.2.2
    refine answers (e := { s.taken with cu := s.cu }) hin rfl nofun ?_ (noted_refl _) hrole
    rw [productData, readProducts_of_length hlength]
    exact congrArg (refuse .badField) (afterTaking_active (code := 0x23) hactive)
  · refine refused_of_own hin (by decide) ?_
    rw [readCase, readCaseName_of_length hlength]

/-! ### SET MODE and READ STATUS (R14, R149) -/

theorem setModeCommand_of_params {c : Control} {code : Byte} (hp : c.params = some [code]) (s : State) :
    setModeCommand c s =
      if code = 1 then accept { s with mode := .attributing } (.mode .attributing)
      else if code = 2 then accept { s with mode := .bypass } (.mode .bypass)
      else refuse .badField s := by
  rw [setModeCommand, hp, ofLength_some (n := 1) rfl, Option.bind_some, fieldAt_first]
  by_cases h1 : code = 1
  · rw [if_pos h1, h1]
    rfl
  · by_cases h2 : code = 2
    · rw [if_neg h1, if_pos h2, h2]
      rfl
    · rw [if_neg h1, if_neg h2]
      have hne1 : code.toNat ≠ 1 := fun h => h1 (BitVec.eq_of_toNat_eq h)
      have hne2 : code.toNat ≠ 2 := fun h => h2 (BitVec.eq_of_toNat_eq h)
      rw [show modeOf code.toNat = none by unfold modeOf; split <;> simp_all]

theorem readStatus_of_empty {c : Control} (h : c.params = some []) (session : Option Session) (s : State) :
    readStatus session c s = accept s (.status (statusOf session s)) := by
  simp only [readStatus, h]
  rfl

/-- Settles O40: the mode by its code, and the status of either role. -/
theorem modeAndStatus : Obligations.ModeAndStatus := by
  unfold Obligations.ModeAndStatus
  refine ⟨fun c code s hin hp => ?_, fun c s hp => ?_⟩
  · have hown := setModeCommand_of_params hp s.taken
    refine next_ite (fun h1 => ?_) fun h1 => next_ite (fun h2 => ?_) fun h2 => ?_
    · exact accepted_of_own hin (by decide) (hown.trans (if_pos h1)) (noted_refl _) rfl
    · exact accepted_of_own hin (by decide) (hown.trans ((if_neg h1).trans (if_pos h2))) (noted_refl _) rfl
    · exact refused_of_own hin (by decide) (hown.trans ((if_neg h1).trans (if_neg h2)))
  · intro status
    refine ⟨fun hin => ?_, fun hin => ?_⟩
    · have hrole : s.mirror.role = .active := inHand_role hin
      have hactive : s.taken.isActive = true := hin.2.2.2.2.2
      refine answers_taken hin (by decide) rfl nofun ?_ (noted_refl s.taken) hrole
      rw [readStatus_of_empty hp]
      simp only [statusOf, State.counters, hactive, if_true]
      rfl
    · have hactive : s.takenStandby.isActive = false := hin.2.2.2.2.2
      refine relayed_of_own hin (by decide) rfl nofun ?_ rfl
      rw [readStatus_of_empty hp]
      simp only [statusOf, State.counters, hactive, Bool.false_eq_true, if_false]
      rfl

end Sys2Proof.Machine

/-! The four kinds of reset (08_management_commands.md, 8.9; 10_paired_engines.md, 10.7). -/

namespace Sys2Proof.Machine

/-! ### POWER-ON and PIN (R37, R162) -/

/-- A POWER-ON or PIN reset with the PAIR strap: the start-up delay runs. -/
theorem finish_startUp_paired (cause : ResetCause) {straps : Straps} (h : straps.pair = true) (s : State) :
    finish (startUp cause straps s) =
      { pending := s.pending, draws := s.draws, resetCause := cause, mirror := { straps := straps, stage := .delay } } := by
  have hstart : startUp cause straps s =
      { pending := s.pending, draws := s.draws, resetCause := cause, mirror := { straps := straps, stage := .delay } } :=
    if_pos h
  rw [hstart, finish_of_no_writes rfl]
  unfold State.begun MirrorUnit.pump
  simp only [h]
  rfl

/-- Without the PAIR strap the engine is ACTIVE at once. -/
theorem finish_startUp_unpaired (cause : ResetCause) {straps : Straps} (h : straps.pair = false) (s : State) :
    finish (startUp cause straps s) =
      { pending := s.pending, draws := s.draws, resetCause := cause
        station := { tx := .credit 16 0 true, lastCredit := some (16, true) }
        centre := { tx := .credit 16 0 true, lastCredit := some (16, true) }
        walk := some ⟨0, false⟩
        notices := { entries := [(NoticeClass.roleChange.code, { count := 1, subject := some (.line .hold) })] }
        mirror := { straps := straps, role := .active, holdOut := true } } := by
  have hstart : startUp cause straps s =
      { pending := s.pending, draws := s.draws, resetCause := cause
        walk := some ⟨0, false⟩
        notices := { entries := [(NoticeClass.roleChange.code, { count := 1, subject := some (.line .hold) })] }
        mirror := { straps := straps, role := .active, holdOut := true } } := by
    unfold startUp
    simp only [h, Bool.false_eq_true, if_false]
    unfold trigger countRoleChange countNotice State.setNotice MirrorUnit.note MirrorUnit.mirrors
    simp only [h, clearedBy]
    rfl
  rw [hstart, finish_of_no_writes rfl]
  unfold State.begun MirrorUnit.pump
  simp only [h]
  rfl

theorem exec_powerOnReset (straps : Straps) (s : State) :
    exec (.powerOnReset straps) s = .next (finish (startUp .powerOn straps s)) := rfl

theorem exec_pinReset (straps : Straps) (s : State) :
    exec (.pinReset straps) s = .next (finish (startUp .pin straps s)) := rfl

/-- Settles O46: the two forms of the state by the PAIR strap, and the items of the reset state. -/
theorem resetsStartTheEngine : Obligations.ResetsStartTheEngine := by
  unfold Obligations.ResetsStartTheEngine
  refine ⟨fun straps s => ?_, ?_, rfl, rfl, rfl, rfl, rfl, rfl, rfl, rfl, rfl, fun _ => rfl, fun _ => rfl, fun _ => rfl⟩
  · intro started
    have hstarted (cause : ResetCause) : finish (startUp cause straps s) = started cause := by
      cases h : straps.pair with
      | true =>
        rw [finish_startUp_paired cause h, show started cause = _ from if_pos h]
      | false =>
        rw [finish_startUp_unpaired cause h, show started cause = _ from if_neg (by rw [h]; decide)]
    rw [exec_powerOnReset, exec_pinReset, hstarted, hstarted]
    exact ⟨rfl, rfl⟩
  · rw [exec_powerOnReset, finish_startUp_unpaired .powerOn rfl]
    rfl

/-- Settles O59: the reset state is the state that a POWER-ON reset leaves. -/
theorem resetIsSound : Obligations.ResetIsSound := by
  unfold Obligations.ResetIsSound
  intro r
  obtain ⟨-, hreset, -⟩ := resetsStartTheEngine
  have hr : finish (startUp .powerOn resetStraps State.reset) = r := by
    rw [exec_powerOnReset] at hreset
    exact Host.Outcome.next.inj hreset
  obtain ⟨htable, hhold, hformed, hnotices, hsession, hgroup⟩ := hr ▸ startUp_sound .powerOn resetStraps State.reset
  obtain ⟨hpolicy, hcanonical⟩ := sound_iff.mpr ⟨hformed, hgroup, hnotices, hsession⟩
  exact ⟨by simp [State.withinCapacity, r, State.reset, resetPort, State.isActive], by simp [State.ringsSound, r, State.reset], ⟨hcanonical.1, .nil, by simp [r, State.reset],
    by simp [r, State.reset, resetPort], .nil, by simp [r, State.reset]⟩, hhold, hpolicy, hcanonical, htable,
    by simp [State.horizonSound, r, State.reset], recordsAreConserved.1, rfl⟩

/-! ### The notice table (R152, R158) -/

theorem ofCode_code (c : NoticeClass) : NoticeClass.ofCode c.code = some c := by cases c <;> rfl

theorem code_injective {c k : NoticeClass} (h : c.code = k.code) : c = k :=
  Option.some.inj ((ofCode_code c).symm.trans ((congrArg _ h).trans (ofCode_code k)))

theorem noticeAt_setNotice (s : State) (c k : NoticeClass) (x : NoticeEntry) :
    (s.setNotice c x).noticeAt k = if k = c then x else s.noticeAt k := by
  rw [State.noticeAt]
  show SMap.getD (SMap.setD s.notices.entries {} c.code x) {} k.code = _
  rw [getD_setD]
  by_cases h : k = c
  · rw [if_pos (congrArg _ h), if_pos h]
  · rw [if_neg fun hc => h (code_injective hc), if_neg h]
    rfl

/-- A class cleared: its count and subject are gone, and its mask stays (R158). -/
def NoticeEntry.cleared (x : NoticeEntry) : NoticeEntry := { count := 0, subject := none, masked := x.masked }

theorem noticeAt_clearAll (cs : List NoticeClass) (s : State) (k : NoticeClass) :
    (clearAll cs s).noticeAt k = if k ∈ cs then (s.noticeAt k).cleared else s.noticeAt k := by
  induction cs generalizing s with
  | nil => rfl
  | cons c rest ih =>
    have hclear : (clearNotice c s).noticeAt k = if k = c then (s.noticeAt k).cleared else s.noticeAt k := by
      rw [clearNotice, noticeAt_setNotice]
      by_cases h : k = c
      · rw [if_pos h, if_pos h, h]
        rfl
      · rw [if_neg h, if_neg h]
    rw [clearAll, ih, hclear]
    by_cases hk : k = c <;> by_cases hr : k ∈ rest <;> simp [hk, hr, NoticeEntry.cleared]

theorem mem_noticeClasses (k : NoticeClass) : k ∈ noticeClasses := by cases k <;> decide

theorem noted_clearAll {a b : State} (h : Noted a b) (cs : List NoticeClass) :
    Noted { a with notices := (clearAll cs b).notices } (clearAll cs b) := by
  induction cs generalizing a b with
  | nil =>
    have hn : b.notices = a.notices := by rw [h.1]
    simpa only [clearAll, hn] using h
  | cons c rest ih =>
    have hcleared := noted_setNotice h c { b.noticeAt c with count := 0, subject := none }
    exact ih (a := { a with notices := { a.notices with
      entries := SMap.setD a.notices.entries {} c.code { b.noticeAt c with count := 0, subject := none } } }) hcleared

/-! ### COMMAND and FORCED (R151, R175) -/

/-- An operation that neither reads nor changes the Mirror Unit keeps what is noted. -/
theorem noted_through {g : State → State}
    (hg : ∀ (s : State) (ws : List TableWrite),
      g { s with mirror := { s.mirror with writes := ws } } = { g s with mirror := { s.mirror with writes := ws } })
    (hm : ∀ s, (g s).mirror = s.mirror) {a b : State} (h : Noted a b) : Noted (g a) (g b) := by
  refine ⟨?_, ?_⟩
  · rw [hm, hm]
    exact (congrArg g h.1).trans (hg a b.mirror.writes)
  · rw [hm, hm]
    exact h.2

/-- What a reset restarts outside the tables, the notices and the Mirror Unit (R6, R11, R13, R15 to R17, R84, R141). -/
def State.restarted (cause : ResetCause) (s : State) : State :=
  { s with
    station := {}, centre := {}, upQueue := [], downQueue := [], insertQueue := [], upPointer := .emission
    deltaCount := 0, mode := .attributing, walk := none, cu := {}, resetCause := cause }

theorem keepTables_eq (cause : ResetCause) (s : State) :
    keepTables cause s = resetNotices ((cutStationDelta s).restarted cause) := rfl

/-- The notice pointer as a reset leaves it (R160). -/
def State.pointerReset (s : State) : State := { s with notices := { s.notices with pointer := .tableFullSeen } }

theorem resetNotices_eq (s : State) : resetNotices s = (clearAll noticeClasses s).pointerReset := rfl

theorem noticeAt_pointerReset (s : State) (k : NoticeClass) : s.pointerReset.noticeAt k = s.noticeAt k := rfl

/-- The notices of a reset, before the one that it may count (R160). -/
def State.noticesAfterReset (cause : ResetCause) (s : State) : Notices := (keepTables cause s).notices

theorem noted_keepTables (cause : ResetCause) (s : State) :
    Noted { s.deltaCut.restarted cause with notices := s.noticesAfterReset cause } (keepTables cause s) := by
  have hrestarted := noted_through (g := State.restarted cause) (fun _ _ => rfl) (fun _ => rfl) (noted_cutStationDelta s)
  have hcleared := noted_clearAll hrestarted noticeClasses
  have hpointer := noted_through (g := State.pointerReset) (fun _ _ => rfl) (fun _ => rfl) hcleared
  exact hpointer

theorem noticeAt_congr {s t : State} (h : t.notices = s.notices) : t.noticeAt = s.noticeAt := by
  funext k
  simp only [State.noticeAt, h]

/-- The cut of a delta changes the slots and the List Queue alone. -/
theorem deltaCut_eq (s : State) :
    s.deltaCut = { s with slots := s.deltaCut.slots, listQueue := s.deltaCut.listQueue } := by
  unfold State.deltaCut
  cases s.station.tx with
  | delta d =>
    dsimp only
    cases d.kind with
    | add => rfl
    | remove => cases s.named d.handle <;> rfl
  | idle | credit | forwarded | inserted | emission => rfl

/-- It reads these and the Station transmitter alone. -/
theorem deltaCut_congr {s t : State} (hslots : t.slots = s.slots) (hqueue : t.listQueue = s.listQueue)
    (htx : t.station.tx = s.station.tx) :
    t.deltaCut.slots = s.deltaCut.slots ∧ t.deltaCut.listQueue = s.deltaCut.listQueue := by
  unfold State.deltaCut
  rw [htx]
  cases s.station.tx with
  | delta d =>
    dsimp only
    cases d.kind with
    | add => exact ⟨hslots, by simp only [hqueue]⟩
    | remove =>
      dsimp only
      rw [named_congr hslots]
      cases s.named d.handle with
      | none => exact ⟨hslots, hqueue⟩
      | some c =>
        refine ⟨?_, hqueue⟩
        simp only [State.withCase, State.slotAt, hslots]
  | idle | credit | forwarded | inserted | emission => exact ⟨hslots, hqueue⟩

/-- Every count and subject is gone, and the masks stay (R160). -/
theorem noticeAt_keepTables (cause : ResetCause) (s : State) (k : NoticeClass) :
    (keepTables cause s).noticeAt k = (s.noticeAt k).cleared := by
  have hcut : ((cutStationDelta s).restarted cause).notices = s.notices := by
    show (cutStationDelta s).notices = s.notices
    rw [(noted_cutStationDelta s).1, deltaCut_eq]
  rw [keepTables_eq, resetNotices_eq, noticeAt_pointerReset, noticeAt_clearAll, if_pos (mem_noticeClasses k), noticeAt_congr hcut]

theorem noticeAt_countNotice (s : State) (c : NoticeClass) (sub : Subject) (k : NoticeClass) :
    (countNotice c sub s).noticeAt k = if k = c then s.countedEntry c sub else s.noticeAt k := by
  rw [countNotice, noticeAt_setNotice]
  rfl

/-- A class cleared and then counted once. -/
theorem noticeAt_resetCounted {s t : State} {b : Bool} {c : NoticeClass} {sub : Subject}
    (h : ∀ k, t.noticeAt k = (s.noticeAt k).cleared) (k : NoticeClass) :
    (countIf b c sub t).noticeAt k =
      if b = true ∧ k = c then { count := 1, subject := some sub, masked := (s.noticeAt k).masked }
      else { count := 0, subject := none, masked := (s.noticeAt k).masked } := by
  cases b with
  | false =>
    rw [if_neg (by simp)]
    exact h k
  | true =>
    show (countNotice c sub t).noticeAt k = _
    rw [noticeAt_countNotice]
    by_cases hk : k = c
    · subst hk
      rw [if_pos rfl, if_pos ⟨rfl, rfl⟩, State.countedEntry, h]
      rfl
    · rw [if_neg hk, if_neg fun hc => hk hc.2]
      exact h k

/-- The cut of a delta beside a change of the Centre port, the Command Unit and the Mirror Unit. -/
theorem deltaCut_beside (p : Port) (u : CommandUnit) (m : MirrorUnit) (s : State) :
    State.deltaCut { s with centre := p, cu := u, mirror := m } =
      { s.deltaCut with centre := p, cu := u, mirror := m } := by
  obtain ⟨hslots, hqueue⟩ :=
    deltaCut_congr (s := s) (t := { s with centre := p, cu := u, mirror := m }) rfl rfl rfl
  rw [deltaCut_eq, hslots, hqueue, deltaCut_eq s]

theorem noted_notices {a b : State} (h : Noted a b) : Noted { a with notices := b.notices } b := by
  have hn : b.notices = a.notices := by rw [h.1]
  rw [hn]
  exact h

theorem countIf_pointer (b : Bool) (c : NoticeClass) (sub : Subject) (s : State) :
    (countIf b c sub s).notices.pointer = s.notices.pointer := by cases b <;> rfl

theorem afterCommand_stage (x : HoldStage) :
    x.afterCommand = if x = .pulsing ∨ x = .waiting .forced then .settled else x := by
  cases x with
  | waiting cause => cases cause <;> simp [HoldStage.afterCommand]
  | pulsing => simp [HoldStage.afterCommand]
  | settled | delay | claiming => simp [HoldStage.afterCommand]

/-- What ENGINE RESET leaves, with the notices `ns` (R151). -/
def State.afterCommandReset (ns : Notices) (s : State) : State :=
  { s.deltaCut.restarted .command with
    notices := ns
    walk := if s.isActive then some ⟨0, false⟩ else none
    mirror := s.mirror.afterCommand }

theorem triggerIf_true (s : State) : triggerIf true s = trigger s := rfl

theorem trigger_notices (s : State) : (trigger s).notices = s.notices := rfl

/-- A walk triggered and a notice counted, after a reset. -/
theorem noted_resetCounted {a b : State} (h : Noted a b) (hw : a.walk = none) (p : Bool) (c : NoticeClass) (sub : Subject) :
    Noted
      { a with
        notices := (countIf p c sub (trigger b)).notices
        walk := if a.isActive then some ⟨0, false⟩ else none }
      (countIf p c sub (trigger b)) := by
  have hwalk : a.triggered = if a.isActive then some ⟨0, false⟩ else none := by rw [State.triggered, hw]
  have hcounted := noted_notices (noted_countIf (noted_triggerIf h true) p c sub)
  simp only [if_true, hwalk, triggerIf_true] at hcounted
  exact hcounted

theorem isActive_afterCommand (s : State) : s.mirror.afterCommand.role = s.mirror.role := rfl

theorem noted_commandReset (s : State) :
    Noted (s.afterCommandReset (commandReset s).notices) (commandReset s) := by
  have hkept := noted_keepTables .command { s with mirror := s.mirror.afterCommand }
  rw [deltaCut_beside s.centre s.cu s.mirror.afterCommand s] at hkept
  exact noted_resetCounted hkept rfl s.mirror.resetStops .mirrorStale (.line .pair)

theorem commandReset_notices (s : State) :
    (commandReset s).notices.pointer = .tableFullSeen ∧
      ∀ k, (commandReset s).noticeAt k =
        if s.mirror.resetStops = true ∧ k = .mirrorStale then
          { count := 1, subject := some (.line .pair), masked := (s.noticeAt k).masked }
        else { count := 0, subject := none, masked := (s.noticeAt k).masked } := by
  rw [commandReset]
  refine ⟨countIf_pointer _ _ _ _, noticeAt_resetCounted fun k => ?_⟩
  rw [noticeAt_congr (trigger_notices _), noticeAt_keepTables]
  rfl

theorem engineReset_of_empty {c : Control} (h : c.params = some []) (s : State) :
    engineReset c s = accept (commandReset s) (.wasReset .command (commandReset s).liveCases) := by
  simp only [engineReset, h]
  rfl

theorem liveCases_congr {s t : State} (h : t.slots = s.slots) : t.liveCases = s.liveCases := by
  unfold State.liveCases
  rw [h]

theorem slots_commandReset (s : State) : (commandReset s).slots = s.deltaCut.slots := by
  rw [(noted_commandReset s).1]
  rfl

/-- A STANDBY mirrors nothing, so that it is left just so. -/
theorem noted_eq_of_standby {a b : State} (h : Noted a b) (hr : a.mirror.role = .standby) (hw : a.mirror.writes = []) :
    b = a :=
  noted_eq h (calm_live.mpr ⟨hw, by simp [MirrorUnit.live, hr]⟩)

/-- The reset of a state that differs from `s` in its Centre port and its Command Unit. -/
theorem afterCommandReset_beside (ns : Notices) (p : Port) (u : CommandUnit) (s : State) :
    State.afterCommandReset ns { s with centre := p, cu := u } = s.afterCommandReset ns := by
  unfold State.afterCommandReset
  rw [show State.deltaCut { s with centre := p, cu := u } = { s.deltaCut with centre := p, cu := u, mirror := s.mirror }
    from deltaCut_beside p u s.mirror s, deltaCut_eq s]
  rfl

/-- The live cases that a reset leaves (R150). -/
theorem liveCases_commandReset (p : Port) (u : CommandUnit) (s : State) :
    (commandReset { s with centre := p, cu := u }).liveCases = s.deltaCut.liveCases :=
  liveCases_congr ((slots_commandReset _).trans (deltaCut_congr (s := s) (t := { s with centre := p, cu := u }) rfl rfl rfl).1)

/-- What the state left by a reset is, its Mirror Unit written out. -/
theorem afterCommandReset_eq (ns : Notices) (s : State) :
    let stops : Bool :=
      s.mirror.straps.pair && s.isActive && (!s.mirror.queue.isEmpty || s.mirror.tx.isSome || s.mirror.copy.isSome)
    s.afterCommandReset ns =
      { s.deltaCut with
        station := {}, centre := {}, upQueue := [], downQueue := [], insertQueue := [], upPointer := .emission
        deltaCount := 0, mode := .attributing, cu := {}, notices := ns, resetCause := .command
        walk := if s.isActive then some ⟨0, false⟩ else none
        mirror := { s.mirror with
          stage := if s.mirror.stage = .pulsing ∨ s.mirror.stage = .waiting .forced then .settled
                   else s.mirror.stage
          currency := if stops then .stale else s.mirror.currency
          queue := [], tx := none, stopDue := s.mirror.stopDue || (stops && s.mirror.linkUp)
          yieldDue := false, presenceDue := false, relayList := [], relayHold := [], forceOut := false
          drain := none, copy := none, writes := [] } } := by
  intro stops
  rw [← afterCommand_stage]
  rfl

/-- Settles O41: the reset of the state from which the command's record has been taken, on either role. -/
theorem engineResetKeepsTables : Obligations.EngineResetKeepsTables := by
  unfold Obligations.EngineResetKeepsTables
  intro c s hin hp stops
  rcases hin with hin | hin
  · have hactive : s.isActive = true := hin.2.2.2.2.2
    have hnoted := noted_commandReset s.taken
    have hform := afterCommandReset_beside (commandReset s.taken).notices s.taken.centre s.taken.cu s
    have hown := engineReset_of_empty hp s.taken
    have hcases : (commandReset s.taken).liveCases = s.deltaCut.liveCases := liveCases_commandReset _ _ s
    rw [hcases] at hown
    rw [show s.taken.afterCommandReset _ = _ from hform] at hnoted
    obtain ⟨hpointer, hentries⟩ := commandReset_notices s.taken
    have hrole : s.mirror.role = .active := inHand_role hin
    obtain ⟨t, ht, hanswered⟩ := answers_taken (adm := .either) (busy := false) hin (by decide) rfl nofun hown hnoted hrole
    refine ⟨(commandReset s.taken).notices, t, hpointer, hentries, ht, ?_⟩
    intro e v
    rw [if_pos hactive]
    rw [afterCommandReset_eq] at hanswered
    exact hanswered
  · have hactive : s.isActive = false := hin.2.2.2.2.2
    have hnoted := noted_commandReset s.takenStandby
    have hform := afterCommandReset_beside (commandReset s.takenStandby).notices s.takenStandby.centre s.takenStandby.cu s
    have hown := engineReset_of_empty hp s.takenStandby
    have hcases : (commandReset s.takenStandby).liveCases = s.deltaCut.liveCases := liveCases_commandReset _ _ s
    rw [hcases] at hown
    have hleft := noted_eq_of_standby hnoted (role_of_standby (s := s) hactive) rfl
    rw [show s.takenStandby.afterCommandReset _ = _ from hform] at hleft
    obtain ⟨hpointer, hentries⟩ := commandReset_notices s.takenStandby
    obtain ⟨t, ht, hrelayed⟩ := relayed_of_own (adm := .either) (busy := false) (e := commandReset s.takenStandby) hin
      (by decide) rfl nofun hown
      (by rw [(noted_commandReset s.takenStandby).1]; rfl)
    refine ⟨(commandReset s.takenStandby).notices, t, hpointer, hentries, ht, ?_⟩
    intro e v
    rw [if_neg (by rw [hactive]; decide)]
    rw [hleft, afterCommandReset_eq] at hrelayed
    exact hrelayed

/-! ### A FORCED reset (R175) -/

/-- What a FORCED reset leaves, with the notices `ns`. -/
def State.afterForcedReset (ns : Notices) (s : State) : State :=
  { s.deltaCut.restarted .forced with notices := ns, mirror := s.mirror.afterForced }

theorem noted_forcedReset (s : State) : Noted (s.afterForcedReset (forcedReset s).notices) (forcedReset s) := by
  have hkept := noted_keepTables .forced { s with mirror := s.mirror.afterForced }
  rw [deltaCut_beside s.centre s.cu s.mirror.afterForced s] at hkept
  exact noted_notices (noted_countIf hkept s.isActive .roleChange (.line .hold))

theorem forcedReset_notices (s : State) :
    (forcedReset s).notices.pointer = .tableFullSeen ∧
      ∀ k, (forcedReset s).noticeAt k =
        if s.isActive = true ∧ k = .roleChange then
          { count := 1, subject := some (.line .hold), masked := (s.noticeAt k).masked }
        else { count := 0, subject := none, masked := (s.noticeAt k).masked } := by
  rw [forcedReset]
  refine ⟨countIf_pointer _ _ _ _, noticeAt_resetCounted fun k => ?_⟩
  rw [noticeAt_keepTables]
  rfl

theorem exec_forcePulseReleased {n : Nat} {s : State} (hpair : s.mirror.straps.pair = true) (hlo : 40 ≤ n) (hhi : n ≤ 60) :
    exec (.forcePulseReleased n false) s = .next (finish (forcedReset s)) := by
  have hvalid : validPulse n = true := by simp [validPulse, hlo, hhi]
  simp only [exec, execForcePulseReleased]
  rw [event_next (by simp [State.paired, hpair]), if_pos hvalid]

/-- Settles O50: the reset leaves a STANDBY, which mirrors nothing. -/
theorem forcePulseResets : Obligations.ForcePulseResets := by
  unfold Obligations.ForcePulseResets
  intro n s hpair hlo hhi
  obtain ⟨hpointer, hentries⟩ := forcedReset_notices s
  refine ⟨(forcedReset s).notices, hpointer, hentries, ?_⟩
  have hleft : forcedReset s = s.afterForcedReset (forcedReset s).notices :=
    noted_eq_of_standby (noted_forcedReset s) rfl rfl
  have hwrites : (forcedReset s).mirror.writes = [] := by
    rw [hleft]
    rfl
  rw [exec_forcePulseReleased hpair hlo hhi, finish_of_no_writes hwrites]
  exact congrArg (fun x => Host.Outcome.next (State.begun x)) hleft

end Sys2Proof.Machine

/-! The Command Unit's places and the busy commands (08_management_commands.md, 8.3, 8.4 and 8.7). -/

namespace Sys2Proof.Machine

/-! ### One answer placed (R136, R138, R170) -/

/-- An answer has its place: in the Insert Queue of an ACTIVE engine, in the relay list of a STANDBY with the Pair Link
UP. -/
def State.placed (a : Answer) (s : State) : State :=
  { s with
    insertQueue := if s.isActive then s.insertQueue ++ [.answer a] else s.insertQueue
    mirror := if !s.isActive && s.mirror.linkUp then { s.mirror with relayList := s.mirror.relayList ++ [a] }
              else s.mirror }

theorem placeAnswers_of_none (k : Nat) {s : State} (h : s.cu.waiting = []) : placeAnswers k s = s := by
  cases k with
  | zero => rfl
  | succ k => simp [placeAnswers, h]

theorem placeAnswer_of_waiting {a : Answer} {rest : List Answer} {s : State} (h : s.cu.waiting = a :: rest) :
    placeAnswer s = answerPlaced a (State.placed a { s with cu := { s.cu with waiting := rest } }) := by
  simp only [placeAnswer, h]
  rfl

/-- One answer formed when no other waits, and placed at once. -/
theorem flushAnswers_one {a : Answer} {s : State} (hw : s.cu.waiting = []) (hp : s.hasPlace = true)
    (hdone : (answerPlaced a (s.placed a)).cu.waiting = []) :
    flushAnswers (s.withAnswers [a]) = answerPlaced a (s.placed a) := by
  have hwaiting : (s.withAnswers [a]).cu.waiting = [a] := by simp [State.withAnswers, hw]
  have hplace : ((s.withAnswers [a]).hasPlace && !(s.withAnswers [a]).cu.waiting.isEmpty) = true := by
    rw [hwaiting, show (s.withAnswers [a]).hasPlace = s.hasPlace from rfl, hp]
    rfl
  have hback : { s.withAnswers [a] with cu := { (s.withAnswers [a]).cu with waiting := [] } } = s := by
    show { s with cu := { s.cu with waiting := [] } } = s
    rw [← hw]
  rw [flushAnswers, hwaiting]
  show placeAnswers (2 + 1) _ = _
  rw [placeAnswers, if_pos hplace, placeAnswer_of_waiting hwaiting, hback, placeAnswers_of_none _ hdone]

theorem flushAnswers_waits {s : State} (h : s.hasPlace = false) : flushAnswers s = s := by
  rw [flushAnswers, placeAnswers, h]
  rfl

theorem respond_eq (c : Control) (e : State) (v : Verdict) :
    respond c ⟨e, none, v⟩ = flushAnswers (e.withAnswers [e.response c v]) := by
  simp only [respond, State.withAnswers, State.response, Option.toList, List.map_nil, List.append_nil]

/-! ### A command in hand -/

section
variable {code : Byte} {adm : Admission} {busy : Bool} {own : Control → State → Executed} {c : Control} {s : State}

theorem executed_inHand (h : s.inHand code c) (hcode : code ≠ codeProductData) (hadm : adm.fault true = none)
    (hbusy : busy = true → s.cu.busy = none) :
    runCommand code adm busy own s = .next (finish (respond c (own c s.taken))) := by
  obtain ⟨hcontrol, hfault, hcode', htarget, htakes, hactive⟩ := h
  have htaken : s.afterTaking code = s.taken := by
    rw [afterTaking_active hactive, if_neg (show ¬code = 0x23 from hcode)]
  have hcommon : commonFault adm busy c s.taken = none := by
    have hfree : (busy && s.taken.cu.busy.isSome) = false := by
      cases busy with
      | false => rfl
      | true => rw [show s.taken.cu.busy = none from hbusy rfl]; rfl
    rw [commonFault, if_neg (by omega), show s.taken.isActive = true from hactive, hadm]
    simp only [hfree, Bool.false_eq_true, if_false]
  rw [runCommand_eq hcontrol hfault hcode' htakes, htaken, executed, hcommon]

theorem executed_standbyInHand (h : s.standbyInHand code c) (hcode : code ≠ codeProductData)
    (hadm : adm.fault false = none) (hbusy : busy = true → s.cu.busy = none) :
    runCommand code adm busy own s = .next (finish (respond c (own c s.takenStandby))) := by
  obtain ⟨hcontrol, hfault, hcode', htarget, htakes, hactive⟩ := h
  have htaken : s.afterTaking code = s.takenStandby := by
    rw [afterTaking_standby hactive, if_neg (show ¬code = 0x23 from hcode)]
  have hcommon : commonFault adm busy c s.takenStandby = none := by
    have hfree : (busy && s.takenStandby.cu.busy.isSome) = false := by
      cases busy with
      | false => rfl
      | true => rw [show s.takenStandby.cu.busy = none from hbusy rfl]; rfl
    rw [commonFault, if_neg (by omega), show s.takenStandby.isActive = false from hactive, hadm]
    simp only [hfree, Bool.false_eq_true, if_false]
  rw [runCommand_eq hcontrol hfault hcode' htakes, htaken, executed, hcommon]

end

/-! ### Places taken (R15, R136, R138, R140) -/

theorem exec_placeCommandRecord {a : Answer} {rest : List Answer} {s : State} (hactive : s.isActive = true)
    (hroom : s.insertQueue.length < 64) (hw : s.cu.waiting = a :: rest) :
    exec .placeCommandRecord s =
      .next (finish (answerPlaced a
        { s with cu := { s.cu with waiting := rest }, insertQueue := s.insertQueue ++ [.answer a] })) := by
  have hready : (s.isActive && s.insertRoom && !s.cu.waiting.isEmpty) = true := by
    rw [hactive, hw, show s.insertRoom = true from decide_eq_true hroom]
    rfl
  have hplaced : State.placed a { s with cu := { s.cu with waiting := rest } } =
      { s with cu := { s.cu with waiting := rest }, insertQueue := s.insertQueue ++ [.answer a] } := by
    have hactive' : State.isActive { s with cu := { s.cu with waiting := rest } } = true := hactive
    simp only [State.placed, hactive', if_true, Bool.not_true, Bool.false_and, Bool.false_eq_true, if_false]
  simp only [exec, execPlaceCommandRecord]
  rw [event_next hready, placeAnswer_of_waiting hw, hplaced]

/-- The REPLY of a busy command that has not begun begins its work (R138). -/
theorem answerPlaced_begins {r : Response} {b : Busy} {s : State} (hb : s.cu.busy = some b) (hbegun : b.begun = false)
    (hended : b.ended = false) : answerPlaced (.response r) s = beginWork b s := by
  simp only [answerPlaced, hb, hbegun, hended, Bool.or_self, Bool.false_eq_true, if_false]

/-- The REPLY of a busy command takes its place, and its work begins. -/
theorem exec_placeReply {r : Response} {rest : List Answer} {b : Busy} {s : State} (hactive : s.isActive = true)
    (hroom : s.insertQueue.length < 64) (hw : s.cu.waiting = .response r :: rest) (hb : s.cu.busy = some b)
    (hbegun : b.begun = false) (hended : b.ended = false) :
    exec .placeCommandRecord s =
      .next (finish (beginWork b
        { s with cu := { s.cu with waiting := rest }, insertQueue := s.insertQueue ++ [.answer (.response r)] })) := by
  rw [exec_placeCommandRecord hactive hroom hw]
  exact congrArg (fun x => Host.Outcome.next (finish x)) (answerPlaced_begins hb hbegun hended)

theorem beginWork_export {b : Busy} {p : BitVec 16} {n remaining count : Nat} (h : b.work = .exportCases p n remaining count)
    (s : State) : beginWork b s = { s with cu := { s.cu with busy := some { b with begun := true } } } := by
  simp only [beginWork, h]

theorem beginWork_resync_up {b : Busy} {s : State} (h : b.work = .resync) (hl : s.mirror.linkUp = true) :
    beginWork b s =
      { s with cu := { s.cu with busy := some { b with begun := true } }, mirror := s.mirror.copyBegin } := by
  simp only [beginWork, h, hl, if_true]

/-- The work of a running busy command ends in FAILURE (R140): its COMPLETION waits, and the notice is counted. -/
theorem formCompletion_failure {b : Busy} {n : Nat} {d : Option Detail} {s : State} (hb : s.cu.busy = some b)
    (hended : b.ended = false) :
    formCompletion false n d s =
      countNotice .busyDoneFail (.tag b.tag)
        { s with
          cu := { s.cu with
            waiting := s.cu.waiting ++ [.completion ⟨b.tag, b.work.code, s.mirror.straps.member, false, n, d⟩]
            busy := some { b with ended := true } } } := by
  have hrunning : s.cu.running = some b := by simp [CommandUnit.running, hb, hended]
  simp only [formCompletion, CommandUnit.complete, hrunning, countIf]
  rfl

/-- The work of a running busy command ends in SUCCESS (R140). -/
theorem formCompletion_success {b : Busy} {n : Nat} {d : Option Detail} {s : State} (hb : s.cu.busy = some b)
    (hended : b.ended = false) :
    formCompletion true n d s =
      { s with
        cu := { s.cu with
          waiting := s.cu.waiting ++ [.completion ⟨b.tag, b.work.code, s.mirror.straps.member, true, n, d⟩]
          busy := some { b with ended := true } } } := by
  have hrunning : s.cu.running = some b := by simp [CommandUnit.running, hb, hended]
  simp only [formCompletion, CommandUnit.complete, hrunning, countIf]
  rfl

/-- With no work in progress there is nothing to complete. -/
theorem formCompletion_idle {ok : Bool} {n : Nat} {d : Option Detail} {s : State} (h : s.cu.running = none) :
    formCompletion ok n d s = s := by
  simp only [formCompletion, CommandUnit.complete, h, countIf, Option.isSome_none, Bool.and_false, Bool.false_eq_true,
    if_false]

/-- With the Pair Link DOWN the work of a RESYNC PARTNER ends at once (R168). -/
theorem noted_beginWork_resync_down {b : Busy} {s : State} (h : b.work = .resync) (hl : s.mirror.linkUp = false)
    (hended : b.ended = false) :
    Noted
      { s with
        cu := { s.cu with
          waiting := s.cu.waiting ++ [.completion ⟨b.tag, 0x41, s.mirror.straps.member, false, 0, some .linkDown⟩]
          busy := some { b with begun := true, ended := true } }
        notices := s.notices.counted .busyDoneFail (.tag b.tag) }
      (beginWork b s) := by
  obtain ⟨work, tag, begun, ended⟩ := b
  have hwork : work = .resync := h
  subst hwork
  have hformed := formCompletion_failure (b := ⟨.resync, tag, true, ended⟩) (n := 0) (d := some .linkDown)
    (s := { s with cu := { s.cu with busy := some ⟨.resync, tag, true, ended⟩ } }) rfl hended
  simp only [beginWork, hl, Bool.false_eq_true, if_false]
  rw [hformed]
  exact noted_countNotice (noted_refl _) .busyDoneFail (.tag tag)

theorem copyBegin_eq (m : MirrorUnit) :
    m.copyBegin =
      if m.queue.length < 128 then
        { m with
          queue := m.queue ++ [.write ⟨m.next, true, true, .copyBegin⟩]
          next := m.next + 1
          currency := .stale
          copy := some ⟨true, 0, false⟩ }
      else { m with copy := some ⟨false, 0, false⟩ } := rfl

theorem exec_placeRelay {a : Answer} {rest : List Answer} {s : State} (hactive : s.isActive = true)
    (hroom : s.insertQueue.length < 64) (hw : s.cu.waiting = []) (hhold : s.mirror.relayHold = a :: rest) :
    exec .placeRelay s =
      .next (finish { s with
        insertQueue := s.insertQueue ++ [.answer a], mirror := { s.mirror with relayHold := rest } }) := by
  have hready : (s.isActive && s.insertRoom && s.cu.waiting.isEmpty) = true := by
    rw [hactive, hw, show s.insertRoom = true from decide_eq_true hroom]
    rfl
  simp only [exec, execPlaceRelay, hhold]
  rw [event_next hready]

/-- Settles O44: the oldest answer by its kind, and by the busy command whose REPLY it is. -/
theorem placesAreTakenInOrder : Obligations.PlacesAreTakenInOrder := by
  unfold Obligations.PlacesAreTakenInOrder
  refine ⟨fun a rest s hactive hroom hw => ?_, fun a rest b p n remaining count s hactive hroom hw hr hb hbegun hended hwork => ?_,
    fun a rest b s hactive hroom hw hr hb hbegun hended hwork => ?_,
    fun a rest s hactive hroom hw hhold =>
      ⟨_, exec_placeRelay hactive hroom hw hhold, ended_finish (noted_refl _)⟩⟩
  · refine ⟨_, exec_placeCommandRecord hactive hroom hw, ?_⟩
    cases a with
    | summary r => exact ended_finish (noted_refl _)
    | completion r => exact ended_finish (noted_refl _)
    | response r =>
      cases hb : s.cu.busy with
      | none =>
        have hplaced := answerPlaced_response r
          (s := { s with cu := { s.cu with waiting := rest }, insertQueue := s.insertQueue ++ [.answer (.response r)] })
          (by show s.cu.busy.all _ = true; rw [hb]; rfl)
        rw [hplaced]
        exact ended_finish (noted_refl _)
      | some b =>
        intro hdone
        have hplaced := answerPlaced_response r
          (s := { s with cu := { s.cu with waiting := rest }, insertQueue := s.insertQueue ++ [.answer (.response r)] })
          (by show s.cu.busy.all _ = true; rw [hb]; exact hdone)
        rw [hplaced]
        exact ended_finish (noted_refl _)
  · obtain ⟨r, rfl⟩ := hr
    refine ⟨_, exec_placeReply hactive hroom hw hb hbegun hended, ?_⟩
    rw [beginWork_export hwork]
    exact ended_finish (noted_refl _)
  · obtain ⟨r, rfl⟩ := hr
    have hexec := exec_placeReply hactive hroom hw hb hbegun hended
    intro e
    refine ⟨fun hl hwrites => ?_, fun hl => ⟨_, hexec, ?_⟩⟩
    · rw [hexec, beginWork_resync_up hwork]
      swap
      · exact hl
      have hcopy : (s.mirror.copyBegin).writes = [] := by
        rw [copyBegin_eq]
        split_ifs <;> exact hwrites
      rw [finish_of_no_writes hcopy]
      refine congrArg (fun x => Host.Outcome.next (State.begun x)) ?_
      dsimp only
      rw [copyBegin_eq]
      split_ifs <;> rfl
    · exact ended_finish (noted_beginWork_resync_down hwork hl hended)

end Sys2Proof.Machine

namespace Sys2Proof.Machine

/-! ### Busy commands accepted and begun (R138) -/

/-- A busy command accepted with a place for its REPLY begins its work at once. -/
theorem respond_begins {c : Control} {b : Busy} {e : State} {v : Verdict} (hw : e.cu.waiting = [])
    (hp : e.hasPlace = true) (hb : e.cu.busy = some b) (hbegun : b.begun = false) (hended : b.ended = false)
    (hdone : (beginWork b (e.placed (e.response c v))).cu.waiting = []) :
    respond c ⟨e, none, v⟩ = beginWork b (e.placed (e.response c v)) := by
  have hbegins : answerPlaced (e.response c v) (e.placed (e.response c v)) =
      beginWork b (e.placed (e.response c v)) := answerPlaced_begins hb hbegun hended
  rw [respond_eq, flushAnswers_one hw hp (by rw [hbegins]; exact hdone), hbegins]

theorem placed_active (a : Answer) {s : State} (h : s.isActive = true) :
    s.placed a = { s with insertQueue := s.insertQueue ++ [.answer a] } := by
  simp only [State.placed, h, if_true, Bool.not_true, Bool.false_and, Bool.false_eq_true, if_false]

theorem placed_standby_up (a : Answer) {s : State} (h : s.isActive = false) (hl : s.mirror.linkUp = true) :
    s.placed a = { s with mirror := { s.mirror with relayList := s.mirror.relayList ++ [a] } } := by
  simp only [State.placed, h, hl, Bool.not_false, Bool.and_true, Bool.false_eq_true, if_true, if_false]

theorem placed_standby_down (a : Answer) {s : State} (h : s.isActive = false) (hl : s.mirror.linkUp = false) :
    s.placed a = s := by
  simp only [State.placed, h, hl, Bool.not_false, Bool.and_false, Bool.false_eq_true, if_false]

theorem hasPlace_active {s : State} (h : s.isActive = true) (hroom : s.insertQueue.length < 64) :
    s.hasPlace = true := by
  simp only [State.hasPlace, h, if_true]
  exact decide_eq_true hroom

theorem hasPlace_standby {s : State} (h : s.isActive = false)
    (hl : s.mirror.linkUp = true → s.mirror.relayList.length < 8) : s.hasPlace = true := by
  cases hup : s.mirror.linkUp with
  | false => simp [State.hasPlace, h, hup]
  | true => simp [State.hasPlace, h, hl hup]

theorem beginWork_takeover {b : Busy} {s : State} (h : b.work = .takeover false) (hs : s.isActive = false) :
    beginWork b s =
      { s with
        cu := { s.cu with busy := some { b with begun := true } }
        mirror := { s.mirror with yieldDue := true } } := by
  simp only [beginWork, h, hs, Bool.not_false, Bool.and_self, Bool.or_true]

theorem beginWork_forced {b : Busy} {k : Currency} {s : State} (h : b.work = .forcedTakeover k)
    (hs : s.isActive = false) :
    beginWork b s =
      { s with
        cu := { s.cu with busy := some { b with begun := true, work := .forcedTakeover s.mirror.currency } }
        mirror := { s.mirror with group := [], forceOut := true, stage := .pulsing, holdOut := false } } := by
  simp only [beginWork, h, hs, Bool.false_eq_true, if_false]

/-! ### The pair commands (R168, R171, R174) -/

theorem resyncPartner_of_params {c : Control} (hc : c.params = some []) (s : State) :
    resyncPartner c s =
      if s.mirror.straps.pair && s.mirror.linkUp then accept (takeBusy .resync c s) .begun
      else refuse .noPartner s := by
  simp only [resyncPartner, hc]
  rfl

theorem takeover_of_params {c : Control} (hc : c.params = some []) (s : State) :
    takeover c s =
      if !s.mirror.linkUp then refuse .noPartner s
      else if s.mirror.currency = .stale then refuse .staleStandby s
      else accept (takeBusy (.takeover false) c s) .begun := by
  simp only [takeover, hc]
  rfl

theorem forcedTakeover_of_params {c : Control} (hc : c.params = some []) (s : State) :
    forcedTakeover c s = accept (takeBusy (.forcedTakeover s.mirror.currency) c s) .begun := by
  simp only [forcedTakeover, hc]
  rfl

/-- RESYNC PARTNER accepted with a place for its REPLY and one for COPY BEGIN. -/
theorem resync_begins {c : Control} {s : State} (hactive : s.isActive = true) (hl : s.mirror.linkUp = true)
    (hw : s.cu.waiting = []) (hroom : s.insertQueue.length < 64) (hqueue : s.mirror.queue.length < 128) :
    respond c (accept (takeBusy .resync c s) .begun) =
      { s with
        cu := ⟨[], some ⟨.resync, c.tag, true, false⟩, s.cu.session⟩
        insertQueue := s.insertQueue ++ [.answer (s.response c (.reply .begun))]
        mirror := { s.mirror with
          queue := s.mirror.queue ++ [.write ⟨s.mirror.next, true, true, .copyBegin⟩]
          next := s.mirror.next + 1
          currency := .stale
          copy := some ⟨true, 0, false⟩ } } := by
  have hplaced := placed_active ((takeBusy .resync c s).response c (.reply .begun)) (s := takeBusy .resync c s) hactive
  have hbegun := beginWork_resync_up (b := ⟨.resync, c.tag, false, false⟩)
    (s := (takeBusy .resync c s).placed ((takeBusy .resync c s).response c (.reply .begun))) rfl
    (by rw [hplaced]; exact hl)
  rw [hplaced] at hbegun
  refine (respond_begins (b := ⟨.resync, c.tag, false, false⟩) (e := takeBusy .resync c s) hw ?_ rfl rfl rfl
    ?_).trans ?_
  · exact hasPlace_active (s := takeBusy .resync c s) hactive hroom
  · rw [hplaced, hbegun]
    exact hw
  · rw [hplaced, hbegun, copyBegin_eq, if_pos (show (takeBusy .resync c s).mirror.queue.length < 128 from hqueue),
      ← hw]
    rfl

/-- TAKEOVER accepted with a place for its REPLY in the relay list. -/
theorem takeover_begins {c : Control} {s : State} (hstandby : s.isActive = false) (hl : s.mirror.linkUp = true)
    (hw : s.cu.waiting = []) (hroom : s.mirror.relayList.length < 8) :
    respond c (accept (takeBusy (.takeover false) c s) .begun) =
      { s with
        cu := ⟨[], some ⟨.takeover false, c.tag, true, false⟩, s.cu.session⟩
        mirror := { s.mirror with
          relayList := s.mirror.relayList ++ [s.response c (.reply .begun)]
          yieldDue := true } } := by
  have hplaced := placed_standby_up ((takeBusy (.takeover false) c s).response c (.reply .begun))
    (s := takeBusy (.takeover false) c s) hstandby hl
  have hbegun := beginWork_takeover (b := ⟨.takeover false, c.tag, false, false⟩)
    (s := (takeBusy (.takeover false) c s).placed ((takeBusy (.takeover false) c s).response c (.reply .begun))) rfl
    (by rw [hplaced]; exact hstandby)
  rw [hplaced] at hbegun
  refine (respond_begins (b := ⟨.takeover false, c.tag, false, false⟩) (e := takeBusy (.takeover false) c s) hw ?_
    rfl rfl rfl ?_).trans ?_
  · exact hasPlace_standby hstandby (fun _ => hroom)
  · rw [hplaced, hbegun]
    exact hw
  · rw [hplaced, hbegun, ← hw]
    rfl

/-- FORCED TAKEOVER accepted: with the Pair Link DOWN its REPLY is lost and its work begins all the same. -/
theorem forced_begins {c : Control} {s : State} (hstandby : s.isActive = false) (hw : s.cu.waiting = [])
    (hroom : s.mirror.linkUp = true → s.mirror.relayList.length < 8) :
    respond c (accept (takeBusy (.forcedTakeover s.mirror.currency) c s) .begun) =
      { s with
        cu := ⟨[], some ⟨.forcedTakeover s.mirror.currency, c.tag, true, false⟩, s.cu.session⟩
        mirror := { s.mirror with
          relayList :=
            if s.mirror.linkUp then s.mirror.relayList ++ [s.response c (.reply .begun)] else s.mirror.relayList
          group := [], forceOut := true, stage := .pulsing, holdOut := false } } := by
  have hplaced : (takeBusy (.forcedTakeover s.mirror.currency) c s).placed (s.response c (.reply .begun)) =
      { takeBusy (.forcedTakeover s.mirror.currency) c s with
        mirror := { s.mirror with
          relayList :=
            if s.mirror.linkUp then s.mirror.relayList ++ [s.response c (.reply .begun)]
            else s.mirror.relayList } } := by
    cases hl : s.mirror.linkUp with
    | true => exact placed_standby_up _ (s := takeBusy (.forcedTakeover s.mirror.currency) c s) hstandby hl
    | false => exact placed_standby_down _ (s := takeBusy (.forcedTakeover s.mirror.currency) c s) hstandby hl
  have hbegun := beginWork_forced (b := ⟨.forcedTakeover s.mirror.currency, c.tag, false, false⟩)
    (s := (takeBusy (.forcedTakeover s.mirror.currency) c s).placed (s.response c (.reply .begun))) rfl
    (by rw [hplaced]; exact hstandby)
  rw [hplaced] at hbegun
  refine (respond_begins (b := ⟨.forcedTakeover s.mirror.currency, c.tag, false, false⟩)
    (e := takeBusy (.forcedTakeover s.mirror.currency) c s) hw (hasPlace_standby hstandby hroom) rfl rfl rfl
    ?_).trans ?_
  · show (beginWork _ ((takeBusy (.forcedTakeover s.mirror.currency) c s).placed _)).cu.waiting = []
    rw [show (takeBusy (.forcedTakeover s.mirror.currency) c s).response c (.reply .begun) =
      s.response c (.reply .begun) from rfl, hplaced, hbegun]
    exact hw
  · rw [show (takeBusy (.forcedTakeover s.mirror.currency) c s).response c (.reply .begun) =
      s.response c (.reply .begun) from rfl, hplaced, hbegun, ← hw]
    rfl

theorem standbyInHand_role {code : Byte} {c : Control} {s : State} (h : s.standbyInHand code c) :
    s.isActive = false := by
  obtain ⟨-, -, -, -, -, hactive⟩ := h
  exact hactive

/-- Settles O43: the conditions of each pair command in their order, then its work. -/
theorem pairCommandsBegin : Obligations.PairCommandsBegin := by
  unfold Obligations.PairCommandsBegin
  refine ⟨fun c s h hfree hc => ?_, fun c s h hfree hc => ?_, fun c s h hfree hc => ?_⟩
  · refine ⟨_, executed_inHand h (by decide) rfl (fun _ => hfree), ?_⟩
    have hactive : s.isActive = true := by
      obtain ⟨-, -, -, -, -, hactive⟩ := h
      exact hactive
    rw [resyncPartner_of_params hc]
    by_cases hpartner : s.mirror.straps.pair = true ∧ s.mirror.linkUp = true
    · rw [if_pos hpartner, if_pos (show (s.taken.mirror.straps.pair && s.taken.mirror.linkUp) = true from
        (Bool.and_eq_true _ _).mpr hpartner)]
      obtain ⟨htables, -, -, -, hanswer, -⟩ :=
        answered_respond (c := c) (v := .reply .begun) (e := takeBusy .resync c s.taken) (role_of_active hactive)
          (noted_refl _)
      refine ⟨htables, hanswer _ (List.mem_singleton_self _), fun hwrites hw hroom hqueue => ?_⟩
      rw [resync_begins (s := s.taken) hactive hpartner.2 hw hroom hqueue]
      exact finish_of_no_writes hwrites
    · rw [if_neg hpartner, if_neg (show ¬(s.taken.mirror.straps.pair && s.taken.mirror.linkUp) = true from
        fun h' => hpartner ((Bool.and_eq_true _ _).mp h'))]
      exact answered_respond (e := s.taken) (role_of_active hactive) (noted_refl _)
  · refine ⟨_, executed_standbyInHand h (by decide) rfl (fun _ => hfree), ?_⟩
    have hstandby := standbyInHand_role h
    rw [takeover_of_params hc]
    cases hl : s.mirror.linkUp with
    | false =>
      rw [if_pos rfl, if_pos (show (!s.takenStandby.mirror.linkUp) = true by
        rw [show s.takenStandby.mirror.linkUp = false from hl]; rfl)]
      exact relayed_respond (role_of_standby hstandby)
    | true =>
      rw [if_neg (show ¬true = false from nofun), if_neg (show ¬(!s.takenStandby.mirror.linkUp) = true by
        rw [show s.takenStandby.mirror.linkUp = true from hl]; exact Bool.false_ne_true)]
      by_cases hstale : s.mirror.currency = .stale
      · rw [if_pos hstale, if_pos (show s.takenStandby.mirror.currency = .stale from hstale)]
        exact relayed_respond (role_of_standby hstandby)
      · rw [if_neg hstale, if_neg (show ¬s.takenStandby.mirror.currency = .stale from hstale)]
        obtain ⟨htables, -⟩ := relayed_respond (c := c) (v := .reply .begun)
          (e := takeBusy (.takeover false) c s.takenStandby) (role_of_standby hstandby)
        refine ⟨htables, fun hwrites hw hroom => ?_⟩
        rw [takeover_begins (s := s.takenStandby) hstandby hl hw hroom]
        exact finish_of_no_writes hwrites
  · refine ⟨_, executed_standbyInHand h (by decide) rfl (fun _ => hfree), ?_⟩
    have hstandby := standbyInHand_role h
    rw [forcedTakeover_of_params hc]
    obtain ⟨htables, -⟩ := relayed_respond (c := c) (v := .reply .begun)
      (e := takeBusy (.forcedTakeover s.mirror.currency) c s.takenStandby) (role_of_standby hstandby)
    refine ⟨htables, fun hwrites hw hroom => ?_⟩
    have hbegins := forced_begins (c := c) (s := s.takenStandby) hstandby hw hroom
    rw [hbegins]
    exact finish_of_no_writes hwrites

/-! ### EXPORT CASES (R146 to R148) -/

/-- The busy work of an EXPORT CASES that its body names: a filter and a window of slots (R146). -/
theorem exportCases_of_params {c : Control} {bs : List Byte} (hc : c.params = some bs) (hlen : bs.length = 6)
    (s : State) :
    exportCases c s =
      if fieldAt 0 2 bs ≠ 0 ∧ fieldAt 0 2 bs % 2 = 0 ∧ fieldAt 0 2 bs < 512 ∧ fieldAt 2 2 bs ≤ 2111 ∧
          fieldAt 4 2 bs ≤ 2111 then
        accept
          (takeBusy (.exportCases (BitVec.ofNat 16 (fieldAt 0 2 bs)) (fieldAt 2 2 bs)
            (runLength 2112 (fieldAt 2 2 bs) (fieldAt 4 2 bs)) 0) c s)
          (.exporting (BitVec.ofNat 16 (fieldAt 0 2 bs)) (fieldAt 2 2 bs) (fieldAt 4 2 bs)
            (runLength 2112 (fieldAt 2 2 bs) (fieldAt 4 2 bs)))
      else refuse .badField s := by
  have hwindow : ∀ n : Nat, (n < slotLimit) = (n ≤ 2111) := fun n => propext (by unfold slotLimit; omega)
  simp only [exportCases, hc, ofLength_some hlen, validFilter, Bool.and_eq_true, bne_iff_ne, beq_iff_eq,
    decide_eq_true_eq, hwindow, and_assoc]

/-- An EXPORT CASES accepted with a place for its REPLY: its visits begin. -/
theorem exportCases_begins {c : Control} {p : BitVec 16} {n size : Nat} {v : Verdict} {s : State} (hactive : s.isActive = true)
    (hw : s.cu.waiting = []) (hroom : s.insertQueue.length < 64) :
    respond c ⟨takeBusy (.exportCases p n size 0) c s, none, v⟩ =
      { s with
        cu := ⟨[], some ⟨.exportCases p n size 0, c.tag, true, false⟩, s.cu.session⟩
        insertQueue := s.insertQueue ++ [.answer (s.response c v)] } := by
  have hplaced := placed_active ((takeBusy (.exportCases p n size 0) c s).response c v)
    (s := takeBusy (.exportCases p n size 0) c s) hactive
  have hbegun := beginWork_export (b := ⟨.exportCases p n size 0, c.tag, false, false⟩) rfl
    ((takeBusy (.exportCases p n size 0) c s).placed ((takeBusy (.exportCases p n size 0) c s).response c v))
  rw [hplaced] at hbegun
  refine (respond_begins (b := ⟨.exportCases p n size 0, c.tag, false, false⟩)
    (e := takeBusy (.exportCases p n size 0) c s) hw
    (hasPlace_active (s := takeBusy (.exportCases p n size 0) c s) hactive hroom) rfl rfl rfl ?_).trans ?_
  · rw [hplaced, hbegun]
    exact hw
  · rw [hplaced, hbegun, ← hw]
    rfl

/-- An EXPORT CASES accepted while the Insert Queue is full: its REPLY waits, and its work with it. -/
theorem exportCases_waits {c : Control} {p : BitVec 16} {n size : Nat} {v : Verdict} {s : State} (hactive : s.isActive = true)
    (hw : s.cu.waiting = []) (hfull : 64 ≤ s.insertQueue.length) :
    respond c ⟨takeBusy (.exportCases p n size 0) c s, none, v⟩ =
      { s with cu := ⟨[s.response c v], some ⟨.exportCases p n size 0, c.tag, false, false⟩, s.cu.session⟩ } := by
  have hplace : ((takeBusy (.exportCases p n size 0) c s).withAnswers
      [(takeBusy (.exportCases p n size 0) c s).response c v]).hasPlace = false := by
    show (if s.isActive then decide (s.insertQueue.length < 64) else _) = false
    rw [if_pos hactive]
    exact decide_eq_false (by omega)
  rw [respond_eq, flushAnswers_waits hplace]
  show ({ s with cu := ⟨s.cu.waiting ++ [s.response c v], _, s.cu.session⟩ } : State) = _
  rw [hw]
  rfl

/-- The case that an EXPORT CASES finds at its position. -/
def State.reported (phases : BitVec 16) (n : Nat) (s : State) : Option CaseRecord :=
  (s.caseAt n).filter (fun x => phases.getLsbD x.phase.code)

/-- A SUMMARY of the case found has a place of the Insert Queue. -/
def State.withReport (phases : BitVec 16) (n : Nat) (s : State) : State :=
  { s with
    insertQueue := s.insertQueue ++
      ((s.reported phases n).toList.map (fun x => .answer (.summary (summaryOf (s.handleAt n) x s)))) }

theorem exportVisit_eq (phases : BitVec 16) (n remaining count : Nat) (b : Busy) (s : State) :
    exportVisit phases n remaining count b s =
      exportAdvance phases n remaining (if (s.reported phases n).isSome then count + 1 else count) b
        (s.withReport phases n) := by
  unfold exportVisit State.withReport
  rw [show exportMatch phases n s = s.reported phases n from rfl]
  cases s.reported phases n with
  | none => simp only [Option.isSome_none, Bool.false_eq_true, if_false, Option.toList, List.map_nil, List.append_nil]
  | some x => rfl

/-- EXPORT CASES is ready to visit: nobody waits for a place ahead of it, or it needs none. -/
def State.visitReady (phases : BitVec 16) (n : Nat) (s : State) : Bool :=
  !(s.reported phases n).isSome || (s.insertRoom && s.cu.waiting.isEmpty && s.mirror.relayHold.isEmpty)

theorem visitReady_iff (phases : BitVec 16) (n : Nat) (s : State) :
    s.visitReady phases n = true ↔
      ((s.reported phases n).isSome = true →
        s.insertQueue.length < 64 ∧ s.cu.waiting = [] ∧ s.mirror.relayHold = []) := by
  cases h : (s.reported phases n).isSome <;> simp [State.visitReady, h, State.insertRoom, and_assoc]

theorem exec_exportVisit {phases : BitVec 16} {n remaining count : Nat} {b : Busy} {s : State}
    (hactive : s.isActive = true) (hb : s.cu.busy = some b) (hwork : b.work = .exportCases phases n remaining count)
    (hbegun : b.begun = true) (hended : b.ended = false) :
    exec .exportVisit s = event (s.visitReady phases n) (exportVisit phases n remaining count b) s := by
  have hrunning : s.cu.running = some b := by simp [CommandUnit.running, hb, hended]
  have hwaits : s.exportWaits = (s.reported phases n).isSome := by
    simp only [State.exportWaits, hrunning, hwork, hbegun, Bool.true_and]
    rfl
  simp only [exec, execExportVisit, hrunning, hwork, hwaits, hactive, hbegun, Bool.true_and]
  rfl

theorem exportAdvance_on {phases : BitVec 16} {n remaining count : Nat} (h : 1 < remaining) (b : Busy) (s : State) :
    exportAdvance phases n remaining count b s =
      { s with
        cu := { s.cu with
          busy := some { b with work := .exportCases phases ((n + 1) % 2112) (remaining - 1) count } } } := by
  rw [exportAdvance, if_neg (by omega)]
  rfl

/-- The COMPLETION of an EXPORT CASES that ends in SUCCESS (R148). -/
def State.exportDone (count : Nat) (b : Busy) (s : State) : Answer :=
  .completion ⟨b.tag, 0x40, s.mirror.straps.member, true, count, none⟩

/-- After the last slot of its window an EXPORT CASES has formed its COMPLETION (R148). -/
theorem exportAdvance_last {phases : BitVec 16} {n remaining count : Nat} (h : ¬1 < remaining) {b : Busy}
    (hended : b.ended = false) (s : State) :
    exportAdvance phases n remaining count b s =
      flushAnswers (State.withAnswers [s.exportDone count b]
        { s with
          cu := { s.cu with busy := some { b with work := .exportCases phases n 0 count, ended := true } } }) := by
  rw [exportAdvance, if_pos (by omega)]
  exact congrArg flushAnswers
    (formCompletion_success (b := { b with work := .exportCases phases n 0 count })
      (s := { s with cu := { s.cu with busy := some { b with work := .exportCases phases n 0 count } } }) rfl hended)

/-- A COMPLETION that finds a place ends its busy command (R140). -/
theorem flushAnswers_completion {r : Completion} {s : State} (hactive : s.isActive = true) (hw : s.cu.waiting = [])
    (hroom : s.insertQueue.length < 64) :
    flushAnswers (s.withAnswers [.completion r]) =
      { s with
        cu := { s.cu with busy := none }
        insertQueue := s.insertQueue ++ [.answer (.completion r)] } := by
  have hplaced := placed_active (.completion r) hactive
  rw [flushAnswers_one hw (hasPlace_active hactive hroom) (by rw [hplaced]; exact hw), hplaced]
  rfl

/-- What the last visit of an EXPORT CASES leaves. -/
theorem exportAdvance_last_keeps {phases : BitVec 16} {n remaining count : Nat} {b : Busy} {s : State}
    (hactive : s.isActive = true) (h : ¬1 < remaining) (hended : b.ended = false) :
    (exportAdvance phases n remaining count b s).tables = s.tables ∧
    (exportAdvance phases n remaining count b s).road = s.road ∧
    (exportAdvance phases n remaining count b s).mirror.role = .active ∧
    (exportAdvance phases n remaining count b s).holdsAnswer (s.exportDone count b) := by
  rw [exportAdvance_last h hended]
  have hkept := kept_flushAnswers (State.withAnswers [s.exportDone count b]
    { s with cu := { s.cu with busy := some { b with work := .exportCases phases n 0 count, ended := true } } })
  refine ⟨hkept.tables, hkept.road, hkept.role.trans (role_of_active hactive),
    hkept.answers (role_of_active hactive) _ (Or.inr ?_)⟩
  exact List.mem_append_right _ (List.mem_singleton_self _)

/-- Settles O42: an EXPORT CASES accepted or refused, then a visit on its way and the last one. -/
theorem exportReportsItsWindow : Obligations.ExportReportsItsWindow := by
  unfold Obligations.ExportReportsItsWindow
  refine ⟨fun c bs s h hfree hc hlen => ?_, fun phases n remaining count b s hactive hb hwork hbegun hended => ?_⟩
  · refine ⟨_, executed_inHand h (by decide) rfl (fun _ => hfree), ?_⟩
    have hactive : s.isActive = true := by
      obtain ⟨-, -, -, -, -, hactive⟩ := h
      exact hactive
    intro filter first last
    rw [exportCases_of_params hc hlen]
    by_cases hvalid : filter ≠ 0 ∧ filter % 2 = 0 ∧ filter < 512 ∧ first ≤ 2111 ∧ last ≤ 2111
    · rw [if_pos hvalid, if_pos hvalid]
      intro size v work
      have hanswered := answered_respond (c := c) (v := v) (e := takeBusy work c s.taken) (role_of_active hactive)
        (noted_refl _)
      obtain ⟨htables, hroad, -, -, hanswer, -⟩ := hanswered
      refine ⟨htables, hroad, hanswer _ (List.mem_singleton_self _), fun hcalm hw hroom => ?_,
        fun hcalm hw hfull => ?_⟩
      · exact (congrArg finish (exportCases_begins (s := s.taken) hactive hw hroom)).trans
          (finish_of_no_writes (calm_live.mp hcalm).1)
      · exact (congrArg finish (exportCases_waits (s := s.taken) hactive hw hfull)).trans
          (finish_of_no_writes (calm_live.mp hcalm).1)
    · rw [if_neg hvalid, if_neg hvalid]
      exact answered_respond (e := s.taken) (role_of_active hactive) (noted_refl _)
  · intro found count' placed completion
    have hexec := exec_exportVisit hactive hb hwork hbegun hended
    refine ⟨fun hfound hblocked => ?_, fun hready => ?_⟩
    · rw [hexec]
      refine event_idle (Bool.eq_false_iff.mpr fun hready => ?_)
      obtain ⟨hroom, hw, hhold⟩ := (visitReady_iff phases n s).mp hready hfound
      rcases hblocked with hfull | hwaiting | hrelay
      · omega
      · exact hwaiting hw
      · exact hrelay hhold
    · refine ⟨_, hexec.trans (event_next ((visitReady_iff phases n s).mpr hready)), ?_⟩
      rw [exportVisit_eq]
      by_cases hmore : 1 < remaining
      · rw [if_pos hmore, exportAdvance_on hmore]
        exact ended_finish (noted_refl _)
      · rw [if_neg hmore]
        obtain ⟨htables, hroad, hrole, hanswer⟩ := exportAdvance_last_keeps (phases := phases) (n := n) (count := count')
          (s := s.withReport phases n) hactive hmore hended
        refine ⟨(finish_tables _).trans htables, (finish_road _).trans hroad, finish_answers hrole hanswer,
          fun hcalm hw hroom => ?_⟩
        rw [exportAdvance_last hmore hended]
        refine (congrArg finish (flushAnswers_completion
          (r := ⟨b.tag, 0x40, s.mirror.straps.member, true, count', none⟩)
          (s := { s.withReport phases n with
            cu := { s.cu with busy := some { b with work := .exportCases phases n 0 count', ended := true } } })
          hactive hw hroom)).trans ?_
        exact finish_of_no_writes (calm_live.mp hcalm).1

end Sys2Proof.Machine

/-! The notices' commands and their emission (09_notices_and_fault_counting.md). -/

namespace Sys2Proof.Machine

/-! ### Masks (R157) -/

theorem noted_writeMasks {a b : State} (h : Noted a b) (ps : List (NoticeClass × Bool)) :
    Noted { a with notices := (writeMasks ps b).notices } (writeMasks ps b) := by
  induction ps generalizing a b with
  | nil => exact noted_notices h
  | cons p rest ih =>
    have hwritten := noted_setNotice h p.1 { b.noticeAt p.1 with masked := p.2 }
    exact ih (a := { a with notices := { a.notices with
      entries := SMap.setD a.notices.entries {} p.1.code { b.noticeAt p.1 with masked := p.2 } } }) hwritten

theorem writeMasks_pointer (ps : List (NoticeClass × Bool)) (s : State) :
    (writeMasks ps s).notices.pointer = s.notices.pointer := by
  induction ps generalizing s with
  | nil => rfl
  | cons p rest ih => exact ih _

theorem noticeAt_writeMasks_of_not_mem {ps : List (NoticeClass × Bool)} {k : NoticeClass} (h : k ∉ ps.map Prod.fst)
    (s : State) : (writeMasks ps s).noticeAt k = s.noticeAt k := by
  induction ps generalizing s with
  | nil => rfl
  | cons p rest ih =>
    rw [List.map_cons, List.mem_cons, not_or] at h
    obtain ⟨hp, hrest⟩ := h
    rw [writeMasks, ih hrest, noticeAt_setNotice, if_neg hp]

theorem noticeAt_writeMasks_of_mem {ps : List (NoticeClass × Bool)} {k : NoticeClass} {m : Bool}
    (hnodup : (ps.map Prod.fst).Nodup) (h : (k, m) ∈ ps) (s : State) :
    (writeMasks ps s).noticeAt k = { s.noticeAt k with masked := m } := by
  induction ps generalizing s with
  | nil => exact absurd h List.not_mem_nil
  | cons p rest ih =>
    rw [List.map_cons, List.nodup_cons] at hnodup
    obtain ⟨hp, hrest⟩ := hnodup
    rw [writeMasks]
    rcases List.mem_cons.mp h with rfl | hmem
    · rw [noticeAt_writeMasks_of_not_mem hp, noticeAt_setNotice, if_pos rfl]
    · have hne : k ≠ p.1 := fun hk => hp (hk ▸ List.mem_map_of_mem (f := Prod.fst) hmem)
      rw [ih hrest hmem, noticeAt_setNotice, if_neg hne]

theorem noticeClasses_nodup : noticeClasses.Nodup := by decide

theorem noticeClasses_getElem? (k : NoticeClass) : noticeClasses[k.code - 1]? = some k := by cases k <;> rfl

theorem code_le (k : NoticeClass) : k.code - 1 < 16 := by cases k <;> decide

/-- Sixteen masks written, each to the class of its place. -/
theorem noticeAt_writeMasks {ms : List Bool} (h : ms.length = 16) (s : State) (k : NoticeClass) :
    (writeMasks (noticeClasses.zip ms) s).noticeAt k =
      { s.noticeAt k with masked := (ms[k.code - 1]?).getD false } := by
  have hget : ms[k.code - 1]? = some (ms[k.code - 1]'(h ▸ code_le k)) := List.getElem?_eq_getElem _
  have hkeys : (noticeClasses.zip ms).map Prod.fst = noticeClasses := List.map_fst_zip (by rw [h]; decide)
  have hnodup : ((noticeClasses.zip ms).map Prod.fst).Nodup := by rw [hkeys]; exact noticeClasses_nodup
  refine noticeAt_writeMasks_of_mem hnodup (List.mem_of_getElem? (i := k.code - 1) ?_) s
  rw [List.getElem?_zip_eq_some, noticeClasses_getElem?, hget]
  exact ⟨rfl, rfl⟩

theorem readMasks_length {p : Option (List Byte)} {ms : List Bool} (h : readMasks p = some ms) : ms.length = 16 := by
  obtain ⟨bs, -, hbs⟩ := Option.bind_eq_some_iff.mp h
  obtain ⟨⟨hlen, -⟩, rfl⟩ := Option.ite_none_right_eq_some.mp hbs |>.imp_right Option.some.inj
  rw [List.length_map, hlen]

theorem clearAll_pointer (cs : List NoticeClass) (s : State) :
    (clearAll cs s).notices.pointer = s.notices.pointer := by
  induction cs generalizing s with
  | nil => rfl
  | cons c rest ih => exact ih _

/-! ### Emission (R155, R156) -/

theorem nextNotice_eq {k : NoticeClass} {before after : List NoticeClass} {s : State}
    (horder : noticeClasses.drop s.notices.pointer.code ++ noticeClasses.take s.notices.pointer.code =
      before ++ k :: after)
    (hbefore : ∀ x ∈ before, (s.noticeAt x).masked = true ∨ (s.noticeAt x).count = 0)
    (hmask : (s.noticeAt k).masked = false) (hcount : 0 < (s.noticeAt k).count) : s.nextNotice = some k := by
  rw [State.nextNotice, horder, List.find?_eq_some_iff_append]
  refine ⟨?_, before, after, rfl, fun x hx => ?_⟩
  · simp [State.reportable, hmask, hcount]
  · rcases hbefore x hx with hm | hc
    · simp [State.reportable, hm]
    · simp [State.reportable, hc]

/-- The conditions under which a NOTICE takes a place. -/
def State.noticeReady (s : State) : Bool :=
  s.isActive && s.mirror.drain.isNone && s.insertRoom && s.cu.waiting.isEmpty && s.mirror.relayHold.isEmpty &&
    !s.exportWaits

theorem exec_placeNotice {k : NoticeClass} {s : State} (h : s.nextNotice = some k) :
    exec .placeNotice s = event s.noticeReady (emitNotice k) s := by
  simp only [exec, execPlaceNotice, h]
  rfl

theorem exec_placeNotice_of_none {s : State} (h : s.nextNotice = none) : exec .placeNotice s = .next s := by
  simp only [exec, execPlaceNotice, h]

theorem noted_emitNotice (k : NoticeClass) (s : State) :
    Noted
      { s with
        insertQueue := s.insertQueue ++
          [.notice ⟨k, (s.noticeAt k).count, (s.noticeAt k).subject, s.mirror.straps.member⟩]
        notices := ⟨SMap.setD s.notices.entries {} k.code
          { count := 0, subject := none, masked := (s.noticeAt k).masked }, k⟩ }
      (emitNotice k s) := by
  have hcleared := noted_setNotice (noted_refl s) k { s.noticeAt k with count := 0, subject := none }
  exact noted_through
    (g := fun x : State => { x with
      insertQueue := s.insertQueue ++
        [.notice ⟨k, (s.noticeAt k).count, (s.noticeAt k).subject, s.mirror.straps.member⟩]
      notices := { x.notices with pointer := k } })
    (fun _ _ => rfl) (fun _ => rfl) hcleared

theorem noticeReady_false {s : State}
    (h : s.isActive = false ∨ s.mirror.drain.isSome = true ∨ 64 ≤ s.insertQueue.length ∨ s.cu.waiting ≠ [] ∨
      s.mirror.relayHold ≠ [] ∨ s.exportWaits = true) : s.noticeReady = false := by
  simp only [State.noticeReady, State.insertRoom, Bool.and_eq_false_iff, decide_eq_false_iff_not, not_lt,
    List.isEmpty_eq_false_iff, Bool.not_eq_false', Option.isNone_eq_false_iff]
  tauto

/-- Settles O45: the two commands on the classes, then the emission in cyclic order. -/
theorem noticesAreMaskedClearedAndEmitted : Obligations.NoticesAreMaskedClearedAndEmitted := by
  unfold Obligations.NoticesAreMaskedClearedAndEmitted
  refine ⟨fun c ms s h hread => ?_, fun c s h hread => ?_, fun c cs s h hread => ?_, fun c s h hread => ?_,
    fun k before after s hactive hdrain hroom hw hhold hexport horder hbefore hmask hcount => ?_, fun s hblocked => ?_⟩
  · have hown : setMask c s.taken = accept (writeMasks (noticeClasses.zip ms) s.taken) (.masks ms) := by
      simp only [setMask, hread]
    obtain ⟨t, hexec, hanswered⟩ := accepted_of_own h (by decide) hown
      (noted_writeMasks (noted_refl s.taken) (noticeClasses.zip ms)) rfl
    exact ⟨(writeMasks (noticeClasses.zip ms) s.taken).notices, t, readMasks_length hread, writeMasks_pointer _ s.taken,
      noticeAt_writeMasks (readMasks_length hread) s.taken, hexec, hanswered⟩
  · exact refused_of_own h (by decide) (by simp only [setMask, hread])
  · have hown : clearNotices c s.taken = accept (clearAll cs s.taken)
        (.cleared (cs.map (fun k => (k, (s.noticeAt k).count, (s.noticeAt k).subject)))) := by
      simp only [clearNotices, hread]
      rfl
    obtain ⟨t, hexec, hanswered⟩ := accepted_of_own h (by decide) hown (noted_clearAll (noted_refl s.taken) cs) rfl
    exact ⟨(clearAll cs s.taken).notices, t, clearAll_pointer cs s.taken, noticeAt_clearAll cs s.taken, hexec, hanswered⟩
  · exact refused_of_own h (by decide) (by simp only [clearNotices, hread])
  · have hready : s.noticeReady = true := by
      simp [State.noticeReady, State.insertRoom, hactive, hdrain, hroom, hw, hhold, hexport]
    exact ⟨_, (exec_placeNotice (nextNotice_eq horder hbefore hmask hcount)).trans (event_next hready),
      ended_finish (noted_emitNotice k s)⟩
  · cases hnext : s.nextNotice with
    | none => exact exec_placeNotice_of_none hnext
    | some k => exact (exec_placeNotice hnext).trans (event_idle (noticeReady_false hblocked))

end Sys2Proof.Machine

/-! The bytes of a frame (11_record_layouts_and_line_characteristics.md, 11.2). -/

namespace Sys2Proof.Machine

/-! ### Two-byte fields -/

theorem beBytes_two (n : Nat) : beBytes 2 n = [BitVec.ofNat 8 (n / 256), BitVec.ofNat 8 n] := by
  simp [beBytes]

theorem beNat_two (a b : Byte) : beNat [a, b] = a.toNat * 256 + b.toNat := by
  simp [beNat]

theorem beNat_beBytes_two {n : Nat} (h : n < 65536) : beNat (beBytes 2 n) = n := by
  rw [beBytes_two, beNat_two, BitVec.toNat_ofNat, BitVec.toNat_ofNat]
  omega

theorem beBytes_two_beNat {a b : Byte} : beBytes 2 (beNat [a, b]) = [a, b] := by
  have ha := a.isLt
  have hb := b.isLt
  rw [beBytes_two, beNat_two]
  congr 1
  · exact BitVec.eq_of_toNat_eq (by rw [BitVec.toNat_ofNat]; omega)
  · congr 1
    exact BitVec.eq_of_toNat_eq (by rw [BitVec.toNat_ofNat]; omega)

/-! ### A frame and its bytes -/

/-- The bytes of a frame, field by field. -/
theorem toBytes_eq (f : Frame) :
    f.toBytes =
      f.kind :: f.flags :: BitVec.ofNat 8 (f.body.length / 256) :: BitVec.ofNat 8 f.body.length ::
        (f.body ++ (f.trailer ++ beBytes 2 (checkword f.covered).toNat)) := by
  rw [Frame.toBytes]
  conv_lhs => lhs; rw [Frame.covered, beBytes_two]
  simp only [List.cons_append, List.nil_append, List.append_assoc]

/-- The frame whose length field reads `len`, cut from the bytes behind that field. -/
def Frame.cut (kind flags : Byte) (len : Nat) (rest : List Byte) : Frame :=
  ⟨kind, flags, rest.take len, (rest.drop len).take (trailerLength flags)⟩

theorem ofBytes_eq_some {kind flags l1 l0 : Byte} {rest : List Byte} {f : Frame} :
    Frame.ofBytes (kind :: flags :: l1 :: l0 :: rest) = some f ↔
      (beNat [l1, l0] ≤ 248 ∧ rest.length = beNat [l1, l0] + trailerLength flags + 2) ∧
      beNat ((rest.drop (beNat [l1, l0])).drop (trailerLength flags)) =
        (checkword (Frame.cut kind flags (beNat [l1, l0]) rest).covered).toNat ∧
      Frame.cut kind flags (beNat [l1, l0]) rest = f := by
  unfold Frame.ofBytes Frame.cut
  dsimp only
  rw [Option.ite_none_right_eq_some, Option.ite_none_right_eq_some, Option.some.injEq]

/-- A frame is cut back from its own body, trailer and checkword. -/
theorem cut_append {f : Frame} (h : f.wf) (tail : List Byte) :
    Frame.cut f.kind f.flags f.body.length (f.body ++ (f.trailer ++ tail)) = f ∧
      ((f.body ++ (f.trailer ++ tail)).drop f.body.length).drop (trailerLength f.flags) = tail := by
  obtain ⟨-, htrailer⟩ := h
  simp only [Frame.cut, List.take_left', List.drop_left', ← htrailer, and_self]

/-- The bytes read are those of the frame cut from them. -/
theorem toBytes_cut {kind flags l1 l0 : Byte} {rest : List Byte}
    (hlen : rest.length = beNat [l1, l0] + trailerLength flags + 2)
    (hcheck : beNat ((rest.drop (beNat [l1, l0])).drop (trailerLength flags)) =
      (checkword (Frame.cut kind flags (beNat [l1, l0]) rest).covered).toNat) :
    (Frame.cut kind flags (beNat [l1, l0]) rest).toBytes = kind :: flags :: l1 :: l0 :: rest := by
  set f := Frame.cut kind flags (beNat [l1, l0]) rest with hf
  have hbody : f.body.length = beNat [l1, l0] := by
    rw [hf]
    exact List.length_take_of_le (by omega)
  obtain ⟨a, b, htail⟩ : ∃ a b, (rest.drop (beNat [l1, l0])).drop (trailerLength flags) = [a, b] :=
    List.length_eq_two.mp (by rw [List.length_drop, List.length_drop, hlen]; omega)
  have hfield : beBytes 2 f.body.length = [l1, l0] := by rw [hbody, beBytes_two_beNat]
  rw [Frame.toBytes, ← hcheck, htail, beBytes_two_beNat, ← htail]
  conv_lhs => lhs; rw [Frame.covered, hfield]
  have hrest : f.body ++ (f.trailer ++ (rest.drop (beNat [l1, l0])).drop (trailerLength flags)) = rest := by
    rw [show f.trailer = (rest.drop (beNat [l1, l0])).take (trailerLength flags) from rfl, List.take_append_drop]
    exact List.take_append_drop _ _
  simp only [List.cons_append, List.nil_append, List.append_assoc, hrest]
  rfl

/-- Settles O60: each field is read back from its place, and the bytes read are the frame's. -/
theorem framesReadBack : Obligations.FramesReadBack := by
  unfold Obligations.FramesReadBack
  refine ⟨fun f h => ?_, fun bs f hread => ?_⟩
  · have hlength : beNat [BitVec.ofNat 8 (f.body.length / 256), BitVec.ofNat 8 f.body.length] = f.body.length := by
      rw [← beBytes_two, beNat_beBytes_two]
      exact Nat.lt_of_le_of_lt h.1 (by decide)
    obtain ⟨hcut, htail⟩ := cut_append h (beBytes 2 (checkword f.covered).toNat)
    rw [toBytes_eq, ofBytes_eq_some, hlength, hcut, htail]
    refine ⟨⟨h.1, ?_⟩, beNat_beBytes_two (checkword f.covered).isLt, rfl⟩
    simp only [List.length_append, h.2, beBytes_two, List.length_cons, List.length_nil, Nat.add_assoc]
  · match bs, hread with
    | kind :: flags :: l1 :: l0 :: rest, hread =>
      obtain ⟨⟨hshort, hlen⟩, hcheck, rfl⟩ := ofBytes_eq_some.mp hread
      refine ⟨⟨?_, ?_⟩, toBytes_cut hlen hcheck⟩
      · exact (List.length_take_le _ _).trans hshort
      · show ((rest.drop (beNat [l1, l0])).take (trailerLength flags)).length = trailerLength flags
        exact List.length_take_of_le (by rw [List.length_drop]; omega)

end Sys2Proof.Machine

/-! Paired engines: the Hold and Force lines (10_paired_engines.md, 10.1, 10.6 and 10.7). -/

namespace Sys2Proof.Machine

/-! ### A STANDBY that loses its claim (R163, R173, R174) -/

theorem becomeStale_standby {s : State} (h : s.mirror.role = .standby) :
    becomeStale s =
      { s with
        notices := s.notices.counted .mirrorStale (.line .pair)
        mirror := { s.mirror with currency := .stale, group := [] } } :=
  countNotice_of_standby (s := { s with mirror := { s.mirror with currency := .stale, group := [] } }) h _ _

theorem failClaim_idle {cause : ClaimCause} {why : Detail} {s : State} (h : s.endsBusy cause = false) :
    failClaim cause why s = s := by
  rw [failClaim, h]
  rfl

/-- The claim's own takeover ends with it. -/
theorem failClaim_busy {cause : ClaimCause} {why : Detail} {b : Busy} {s : State} (hrole : s.mirror.role = .standby)
    (hw : s.cu.waiting = []) (hb : s.cu.busy = some b) (hended : b.ended = false) (h : s.endsBusy cause = true) :
    failClaim cause why s = s.takeoverFailed b why := by
  rw [failClaim, h, if_pos rfl, flush_failTakeover hrole hw hb hended]

/-- Hold dropped, and nothing under way. -/
def State.withdrawn (s : State) : State := { s with mirror := { s.mirror with holdOut := false, stage := .settled } }

/-- A standby that a forced claim leaves STALE, with a MIRROR STOP to send (R174). -/
def State.withdrawnStale (s : State) : State :=
  { s with
    notices := s.notices.counted .mirrorStale (.line .pair)
    mirror := { s.mirror with
      holdOut := false, stage := .settled, currency := .stale, group := [], stopDue := true } }

theorem withdraw_forced_current {s : State} (h : s.mirror.role = .standby) (hc : s.mirror.currency = .current) :
    withdraw .forced s = failClaim .forced .claimLost s.withdrawnStale := by
  simp only [withdraw, hc, if_true]
  rw [becomeStale_standby]
  · rfl
  · exact h

theorem withdraw_forced_stale {s : State} (hc : ¬s.mirror.currency = .current) :
    withdraw .forced s = failClaim .forced .claimLost s.withdrawn := by
  simp only [withdraw, hc, if_false]
  rfl

theorem withdraw_handover (held : Currency) (s : State) :
    withdraw (.handover held) s = failClaim (.handover held) .claimLost s.withdrawn := rfl

theorem exec_holdAssertedDuringClaim {cause : ClaimCause} {s : State} (h : s.mirror.stage = .claiming cause) :
    exec .holdAssertedDuringClaim s = .next (finish (withdraw cause s)) := by
  simp only [exec, execHoldAssertedDuringClaim, h]
  exact event_next rfl

theorem exec_holdStuckTimeout {cause : ClaimCause} {s : State} (h : s.mirror.stage = .waiting cause) :
    exec .holdStuckTimeout s =
      .next (finish (failClaim cause .holdStuck { s with mirror := { s.mirror with stage := .settled } })) := by
  simp only [exec, execHoldStuckTimeout, h]
  exact event_next rfl

/-- A takeover that has failed leaves no write to mirror. -/
theorem finish_takeoverFailed {b : Busy} {why : Detail} {s : State} (h : s.mirror.writes = []) :
    finish (s.takeoverFailed b why) = (s.takeoverFailed b why).begun :=
  finish_of_no_writes ((takeoverFailed_writes b why s).trans h)

/-- The takeover that a claim of this cause belongs to. -/
def ClaimCause.endsWork : ClaimCause → BusyWork → Bool
  | .handover _, .takeover _ => true
  | .forced, .forcedTakeover _ => true
  | _, _ => false

theorem startup_endsWork (w : BusyWork) : ClaimCause.startup.endsWork w = false := by cases w <;> rfl

theorem endsBusy_eq {cause : ClaimCause} {b : Busy} {s : State} (hb : s.cu.busy = some b) (hended : b.ended = false) :
    s.endsBusy cause = cause.endsWork b.work := by
  have hrunning : s.cu.running = some b := by simp [CommandUnit.running, hb, hended]
  simp only [State.endsBusy, hrunning]
  cases cause <;> cases b.work <;> rfl

/-! ### A claim that ends no takeover -/

section
variable {cause : ClaimCause} {s : State}

theorem next_withdraw_idle (hrole : s.mirror.role = .standby) (hwrites : s.mirror.writes = [])
    (hidle : s.endsBusy cause = false) (hstage : s.mirror.stage = .claiming cause) :
    exec .holdAssertedDuringClaim s =
      .next (State.begun (
        if cause = .startup then
          { s.withdrawn with mirror := { s.withdrawn.mirror with currency := .stale } }
        else if cause = .forced ∧ s.mirror.currency = .current then s.withdrawnStale
        else s.withdrawn)) := by
  rw [exec_holdAssertedDuringClaim hstage]
  cases cause with
  | startup => exact congrArg _ (finish_of_no_writes hwrites)
  | handover held =>
    rw [withdraw_handover, failClaim_idle (s := s.withdrawn) hidle, if_neg nofun, if_neg (fun h => nomatch h.1)]
    exact congrArg _ (finish_of_no_writes hwrites)
  | forced =>
    rw [if_neg nofun]
    by_cases hc : s.mirror.currency = .current
    · rw [if_pos ⟨rfl, hc⟩, withdraw_forced_current hrole hc, failClaim_idle (s := s.withdrawnStale) hidle]
      exact congrArg _ (finish_of_no_writes hwrites)
    · rw [if_neg (fun h => hc h.2), withdraw_forced_stale hc, failClaim_idle (s := s.withdrawn) hidle]
      exact congrArg _ (finish_of_no_writes hwrites)

/-! ### A claim whose takeover ends with it -/

theorem next_withdraw_busy {b : Busy} (hrole : s.mirror.role = .standby) (hwrites : s.mirror.writes = [])
    (hw : s.cu.waiting = []) (hb : s.cu.busy = some b) (hended : b.ended = false)
    (hends : cause.endsWork b.work = true) (hstage : s.mirror.stage = .claiming cause) :
    exec .holdAssertedDuringClaim s =
      .next (State.begun (State.takeoverFailed b .claimLost
        (if cause = .forced ∧ s.mirror.currency = .current then s.withdrawnStale else s.withdrawn))) := by
  have hbusy : s.endsBusy cause = true := (endsBusy_eq hb hended).trans hends
  rw [exec_holdAssertedDuringClaim hstage]
  cases cause with
  | startup =>
    rw [startup_endsWork] at hends
    exact absurd hends Bool.false_ne_true
  | handover held =>
    rw [withdraw_handover, failClaim_busy (s := s.withdrawn) hrole hw hb hended hbusy, if_neg (fun h => nomatch h.1)]
    exact congrArg _ (finish_takeoverFailed hwrites)
  | forced =>
    by_cases hc : s.mirror.currency = .current
    · rw [if_pos ⟨rfl, hc⟩, withdraw_forced_current hrole hc,
        failClaim_busy (s := s.withdrawnStale) hrole hw hb hended hbusy]
      exact congrArg _ (finish_takeoverFailed hwrites)
    · rw [if_neg (fun h => hc h.2), withdraw_forced_stale hc, failClaim_busy (s := s.withdrawn) hrole hw hb hended hbusy]
      exact congrArg _ (finish_takeoverFailed hwrites)

end

/-! ### The stages -/

theorem exec_startupDelayEnd {s : State} (h : s.mirror.stage = .delay) (partnerHold : Bool) :
    exec (.startupDelayEnd partnerHold) s =
      .next (finish
        (if partnerHold then { s with mirror := { s.mirror with stage := .settled, currency := .stale } }
         else beginClaim .startup s)) := by
  simp only [exec, execStartupDelayEnd, h]
  exact event_next rfl

theorem exec_partnerHoldReleased {cause : ClaimCause} {s : State} (h : s.mirror.stage = .waiting cause) :
    exec .partnerHoldReleased s = .next (finish (beginClaim cause s)) := by
  simp only [exec, execPartnerHoldReleased, h]
  exact event_next rfl

theorem exec_forcePulseEnd {s : State} (h : s.mirror.stage = .pulsing) :
    exec .forcePulseEnd s =
      .next (finish { s with mirror := { s.mirror with forceOut := false, stage := .waiting .forced } }) := by
  simp only [exec, execForcePulseEnd, h]
  exact event_next rfl

theorem exec_forceGlitch {n : Nat} {s : State} (hpair : s.mirror.straps.pair = true) (h : n < 40 ∨ 60 < n) :
    exec (.forcePulseReleased n false) s = .next (finish (countNotice .forceGlitch (.line .force) s)) := by
  have hinvalid : validPulse n = false := by
    simp only [validPulse, Bool.and_eq_false_iff, decide_eq_false_iff_not]
    omega
  simp only [exec, execForcePulseReleased, hinvalid]
  refine event_next ?_
  rw [State.paired, hpair]
  rfl

/-- Settles O47: each stage by its event, and a lost claim by its cause. -/
theorem holdAndForceStages : Obligations.HoldAndForceStages := by
  unfold Obligations.HoldAndForceStages
  refine ⟨fun partnerHold s h => ⟨_, exec_startupDelayEnd h partnerHold, ?_⟩,
    fun cause s h => ⟨_, exec_partnerHoldReleased h, ended_finish (noted_refl _)⟩,
    fun s h => ⟨_, exec_forcePulseEnd h, ended_finish (noted_refl _)⟩,
    fun cause s hstandby hwrites hw hidle => ⟨fun hstage => ?_, fun hstage => ?_⟩,
    fun cause b s hstandby hwrites hw hb hended hends => ⟨fun hstage => ?_, fun hstage => ?_⟩,
    fun n s hpair h => ⟨_, exec_forceGlitch hpair h, ended_finish (noted_countNotice (noted_refl s) _ _)⟩⟩
  · cases partnerHold with
    | true => exact ended_finish (noted_refl _)
    | false => exact ended_finish (noted_refl _)
  · rw [exec_holdStuckTimeout hstage]
    rw [failClaim_idle (s := { s with mirror := { s.mirror with stage := .settled } }) hidle]
    exact congrArg _ (finish_of_no_writes hwrites)
  · have hnext := next_withdraw_idle (role_of_standby hstandby) hwrites hidle hstage
    intro e
    cases cause with
    | startup => exact hnext
    | handover held => exact hnext
    | forced =>
      cases hc : s.mirror.currency with
      | stale =>
        rw [if_neg nofun, hc, if_neg (fun h => nomatch h.2)] at hnext
        exact hnext
      | current =>
        rw [if_neg nofun, if_pos ⟨rfl, hc⟩] at hnext
        exact hnext
  all_goals
    have hends' : cause.endsWork b.work = true := by
      cases cause <;> cases hwork : b.work <;> simp_all [ClaimCause.endsWork]
  · have hbusy : s.endsBusy cause = true := (endsBusy_eq hb hended).trans hends'
    rw [exec_holdStuckTimeout hstage]
    rw [failClaim_busy (s := { s with mirror := { s.mirror with stage := .settled } }) (role_of_standby hstandby) hw hb
      hended hbusy]
    exact congrArg _ (finish_takeoverFailed hwrites)
  · exact next_withdraw_busy (role_of_standby hstandby) hwrites hw hb hended hends' hstage

end Sys2Proof.Machine

/-! Paired engines: the takeover drain and the handover (10_paired_engines.md, 10.6). -/

namespace Sys2Proof.Machine

/-! ### A drain begins (R172) -/

theorem exec_yieldRequest {s : State} (hpair : s.mirror.straps.pair = true) (hactive : s.isActive = true) :
    exec (.yieldRequest true) s =
      .next (finish
        (if s.mirror.currency = .current ∧ s.mirror.drain = none then beginDrain (hearPair s) else hearPair s)) := by
  have hready : (s.paired && true) = true := by rw [State.paired, hpair]; rfl
  have hbegins : ((hearPair s).isActive && (hearPair s).mirror.currency == .current && (hearPair s).mirror.drain.isNone) =
      decide (s.mirror.currency = .current ∧ s.mirror.drain = none) := by
    rw [show (hearPair s).isActive = true from hactive]
    show (true && s.mirror.currency == .current && s.mirror.drain.isNone) = _
    cases s.mirror.currency <;> cases s.mirror.drain <;> rfl
  simp only [exec, execYieldRequest]
  rw [event_next hready, hbegins]
  simp only [decide_eq_true_eq]

/-- Both ports withhold, and the drain's second runs. -/
def State.draining (s : State) : State := { withholdBoth s with mirror := { s.mirror with drain := some false } }

theorem beginDrain_idle {s : State} (h : s.cu.busy = none) : beginDrain s = s.draining := by
  have hrunning : s.draining.cu.running = none := by
    show s.cu.busy.filter _ = none
    rw [h]
    rfl
  show endExport s.draining = _
  rw [endExport, hrunning]

/-- A running EXPORT CASES ends in FAILURE as the drain begins (R141). -/
theorem beginDrain_export {b : Busy} {p : BitVec 16} {n remaining count : Nat} {s : State} (hb : s.cu.busy = some b)
    (hended : b.ended = false) (hwork : b.work = .exportCases p n remaining count) :
    beginDrain s = flushAnswers (formCompletion false count none s.draining) := by
  have hrunning : s.draining.cu.running = some b := by
    show s.cu.busy.filter _ = some b
    simp [hb, hended]
  show endExport s.draining = _
  rw [endExport, hrunning]
  simp only [hwork]

/-- The COMPLETION that a failed work forms has its place or waits for it. -/
theorem formCompletion_holdsAnswer {b : Busy} {n : Nat} {d : Option Detail} {s : State} (hb : s.cu.busy = some b)
    (hended : b.ended = false) :
    (formCompletion false n d s).holdsAnswer
      (.completion ⟨b.tag, b.work.code, s.mirror.straps.member, false, n, d⟩) := by
  rw [formCompletion_failure hb hended]
  exact Or.inr (List.mem_append_right _ (List.mem_singleton_self _))

/-! ### The handover (R172) -/

/-- What R172 asks of the lines and queues. -/
theorem drained_iff (s : State) :
    s.drained = true ↔
      s.station.heldGrant = some s.station.nr ∧ s.centre.heldGrant = some s.centre.nr ∧ s.upQueue = [] ∧
        s.downQueue = [] ∧ s.insertQueue = [] ∧ s.mirror.relayHold = [] ∧ s.station.tx = .idle ∧
        s.centre.tx = .idle ∧ s.station.rx = [] ∧ (s.centre.rx = [] ∨ s.control.isSome = true) := by
  simp only [State.drained, Port.quiescent, State.controlWaits, Bool.and_eq_true, Bool.or_eq_true, beq_iff_eq,
    List.isEmpty_iff, and_assoc]

theorem exec_drainComplete {expired : Bool} {s : State} (hactive : s.isActive = true)
    (hdrain : s.mirror.drain = some expired) :
    exec .drainComplete s = event (s.mirror.queue.isEmpty && (expired || s.drained)) handOver s := by
  simp only [exec, execDrainComplete, hdrain, hactive, Bool.true_and]

theorem exec_drainTimeout {s : State} (hactive : s.isActive = true) (hdrain : s.mirror.drain = some false) :
    exec .drainTimeout s =
      .next (finish
        (if s.mirror.queue.isEmpty then handOver s
         else { s with mirror := { s.mirror with drain := some true } })) := by
  simp only [exec, execDrainTimeout, hdrain, hactive]
  exact event_next rfl

/-- The engine after its handover: a CURRENT STANDBY with a HANDOVER to send. -/
def State.handedOff (s : State) : State :=
  { s with
    station := s.station.ceaseActive, centre := s.centre.ceaseActive, upQueue := [], downQueue := []
    insertQueue := [], walk := none, cu := {}
    notices := s.notices.counted .roleChange (.line .hold)
    mirror := s.mirror.handOver }

theorem handOver_eq (s : State) : handOver s = s.handedOff :=
  countNotice_of_standby
    (s := { s with
      mirror := s.mirror.handOver, station := s.station.ceaseActive, centre := s.centre.ceaseActive
      upQueue := [], downQueue := [], insertQueue := [], walk := none, cu := {} }) rfl .roleChange (.line .hold)

theorem finish_handOver (s : State) : finish (handOver s) = s.handedOff.begun := by
  rw [handOver_eq]
  exact finish_of_no_writes rfl

/-- Settles O49: a drain begun, complete, and out of time. -/
theorem drainHandsOver : Obligations.DrainHandsOver := by
  unfold Obligations.DrainHandsOver
  refine ⟨fun s hpair hactive => ?_, fun expired s hactive hdrain hqueue => ?_, fun s hactive hdrain hqueue => ?_⟩
  · intro heard
    refine ⟨_, exec_yieldRequest hpair hactive, ?_⟩
    by_cases hbegins : s.mirror.currency = .current ∧ s.mirror.drain = none
    · rw [if_pos hbegins, if_pos hbegins]
      refine ⟨fun b hb hended p n r count hwork => ?_, fun hb => ?_⟩
      · rw [beginDrain_export (s := hearPair s) hb hended hwork]
        have hkept := kept_trans (kept_formCompletion false count none (hearPair s).draining)
          (kept_flushAnswers (formCompletion false count none (hearPair s).draining))
        have hrole : (hearPair s).draining.mirror.role = .active := role_of_active hactive
        have hformed := formCompletion_holdsAnswer (n := count) (d := none) (s := (hearPair s).draining) hb hended
        rw [hwork] at hformed
        refine ⟨?_, finish_answers (hkept.role.trans hrole) ((kept_flushAnswers _).answers ?_ _ hformed)⟩
        · have hpairing := (finish_pairing (hkept.role.trans hrole)).trans (hkept.pairing hrole)
          exact congrArg Pairing.drain hpairing
        · exact (kept_formCompletion false count none (hearPair s).draining).role.trans hrole
      · rw [beginDrain_idle (s := hearPair s) hb]
        exact ended_finish (noted_refl _)
    · rw [if_neg hbegins, if_neg hbegins]
      exact ended_finish (noted_refl _)
  · intro idle after complete
    have hready : (s.mirror.queue.isEmpty && (expired || s.drained)) = decide (expired = true ∨ complete) := by
      rw [hqueue, List.isEmpty_nil, Bool.true_and, Bool.eq_iff_iff, Bool.or_eq_true, decide_eq_true_eq, drained_iff]
    rw [exec_drainComplete hactive hdrain, hready]
    refine ⟨fun h => ?_, fun h => event_idle (decide_eq_false h), fun h => ?_⟩
    · rw [event_next (decide_eq_true h), finish_handOver]
      rfl
    · subst h
      rw [exec_drainTimeout hactive hdrain, hqueue, List.isEmpty_nil, if_pos rfl, finish_handOver]
      rfl
  · have hbusy : s.mirror.queue.isEmpty = false := List.isEmpty_eq_false_iff.mpr hqueue
    refine ⟨?_, _, exec_drainTimeout hactive hdrain, ?_⟩
    · rw [exec_drainComplete hactive hdrain, hbusy]
      exact event_idle rfl
    · rw [hbusy, if_neg Bool.false_ne_true]
      exact ended_finish (noted_refl _)

end Sys2Proof.Machine

/-! Paired engines: the Pair Link and its messages (10_paired_engines.md, 10.2 to 10.6). -/

namespace Sys2Proof.Machine

/-! ### Mirroring stops (R167) -/

/-- On an engine that mirrors nothing a notice is counted and no more. -/
theorem countNotice_calm {s : State} (h : s.calm = true) (c : NoticeClass) (sub : Subject) :
    countNotice c sub s = { s with notices := s.notices.counted c sub } :=
  noted_eq (noted_countNotice (noted_refl s) c sub) h

theorem stopped_eq {report : Bool} {m : MirrorUnit} (hreport : (report && m.linkUp) = false) (hwrites : m.writes = []) :
    m.stopped report =
      { m with
        currency := .stale, queue := if m.sendingQueued then m.queue.take 1 else [], copy := none } := by
  rw [MirrorUnit.stopped, hreport, Bool.or_false, ← hwrites]

theorem mirroringStopped_calm {s : State} (hwrites : s.mirror.writes = []) (ns : Notices) (u : CommandUnit) :
    State.calm { s.mirroringStopped with notices := ns, cu := u } = true :=
  calm_live.mpr ⟨hwrites, by simp [MirrorUnit.live, State.mirroringStopped]⟩

/-- A stop that sends no MIRROR STOP of its own counts MIRROR_STALE. -/
theorem stop_counted {report : Bool} {s : State} (hreport : (report && s.mirror.linkUp) = false)
    (hwrites : s.mirror.writes = []) :
    countNotice .mirrorStale (.line .pair) { s with mirror := s.mirror.stopped report } = s.mirroringStopped := by
  rw [stopped_eq hreport hwrites]
  exact countNotice_calm (mirroringStopped_calm hwrites s.notices s.cu) _ _

theorem stopMirroring_none {why : Detail} {report : Bool} {s : State} (hreport : (report && s.mirror.linkUp) = false)
    (hwrites : s.mirror.writes = []) (hw : s.cu.waiting = []) (hcopy : s.mirror.copy = none) :
    stopMirroring why report s = s.mirroringStopped := by
  simp only [stopMirroring, stop_counted hreport hwrites, hcopy]
  exact flushAnswers_of_none hw

/-- A copy that runs ends in FAILURE (R169). -/
theorem stopMirroring_copy {why : Detail} {report : Bool} {k : Copy} {b : Busy} {s : State}
    (hactive : s.isActive = true) (hreport : (report && s.mirror.linkUp) = false) (hwrites : s.mirror.writes = [])
    (hw : s.cu.waiting = []) (hcopy : s.mirror.copy = some k) (hb : s.cu.busy = some b) (hended : b.ended = false) :
    stopMirroring why report s = s.mirroringStopped.copyFailed b k.items why := by
  set done : Completion := ⟨b.tag, b.work.code, s.mirror.straps.member, false, k.items, some why⟩ with hdone
  set failed : State :=
    { s.mirroringStopped with
      notices := s.mirroringStopped.notices.counted .busyDoneFail (.tag b.tag)
      cu := { s.cu with busy := some { b with ended := true } } } with hfailed
  have hformed : formCompletion false k.items (some why) s.mirroringStopped = failed.withAnswers [.completion done] := by
    rw [formCompletion_failure (s := s.mirroringStopped) hb hended]
    exact countNotice_calm (mirroringStopped_calm hwrites _ _) _ _
  simp only [stopMirroring, stop_counted hreport hwrites, hcopy, hformed]
  by_cases hroom : s.insertQueue.length < 64
  · rw [flushAnswers_completion (s := failed) hactive hw hroom]
    simp only [State.copyFailed, show s.mirroringStopped.insertQueue.length < 64 from hroom, decide_true, if_true]
    rw [hfailed, ← hw]
    rfl
  · have hplace : (failed.withAnswers [.completion done]).hasPlace = false := by
      show (if s.isActive then decide (s.insertQueue.length < 64) else _) = false
      rw [if_pos hactive]
      exact decide_eq_false hroom
    rw [flushAnswers_waits hplace]
    simp only [State.copyFailed, show ¬s.mirroringStopped.insertQueue.length < 64 from hroom, decide_false,
      Bool.false_eq_true, if_false]
    show ({ failed with cu := { failed.cu with waiting := s.cu.waiting ++ [.completion done] } } : State) = _
    rw [hw]
    rfl

theorem endDrain_eq (s : State) : endDrain s = s.drainEnded := rfl

theorem drainEnded_none {s : State} (h : s.mirror.drain = none) : s.drainEnded = s := by
  simp [State.drainEnded, h]

/-- The end of a drain touches the two grants and the drain alone. -/
theorem drainEnded_keeps (s : State) :
    s.drainEnded.mirror.writes = s.mirror.writes ∧ s.drainEnded.cu = s.cu ∧
      s.drainEnded.mirror.copy = s.mirror.copy ∧ s.drainEnded.mirror.linkUp = s.mirror.linkUp ∧
      s.drainEnded.isActive = s.isActive := by
  unfold State.drainEnded
  split <;> exact ⟨rfl, rfl, rfl, rfl, rfl⟩

theorem copyFailed_writes (b : Busy) (n : Nat) (why : Detail) (s : State) :
    (s.copyFailed b n why).mirror.writes = s.mirror.writes := rfl

/-- A stop after a drain has ended, with no copy and with one. -/
theorem finish_stop_none {why : Detail} {report : Bool} {s : State} (hreport : (report && s.mirror.linkUp) = false)
    (hwrites : s.mirror.writes = []) (hw : s.cu.waiting = []) (hcopy : s.mirror.copy = none) :
    finish (stopMirroring why report (endDrain s)) = s.drainEnded.mirroringStopped.begun := by
  obtain ⟨hwr, hcu, hcp, hl, -⟩ := drainEnded_keeps s
  rw [endDrain_eq, stopMirroring_none (by rw [hl]; exact hreport) (hwr.trans hwrites) (by rw [hcu]; exact hw)
    (hcp.trans hcopy)]
  exact finish_of_no_writes (hwr.trans hwrites)

theorem finish_stop_copy {why : Detail} {report : Bool} {k : Copy} {b : Busy} {s : State} (hactive : s.isActive = true)
    (hreport : (report && s.mirror.linkUp) = false) (hwrites : s.mirror.writes = []) (hw : s.cu.waiting = [])
    (hcopy : s.mirror.copy = some k) (hb : s.cu.busy = some b) (hended : b.ended = false) :
    finish (stopMirroring why report (endDrain s)) =
      (s.drainEnded.mirroringStopped.copyFailed b k.items why).begun := by
  obtain ⟨hwr, hcu, hcp, hl, ha⟩ := drainEnded_keeps s
  rw [endDrain_eq, stopMirroring_copy (ha.trans hactive) (by rw [hl]; exact hreport) (hwr.trans hwrites)
    (by rw [hcu]; exact hw) (hcp.trans hcopy) (by rw [hcu]; exact hb) hended]
  exact finish_of_no_writes (hwr.trans hwrites)

/-! ### Messages heard (R164, R170) -/

section
variable {s : State}

theorem exec_presence (hpair : s.mirror.straps.pair = true) :
    exec (.presence true) s = .next (finish (hearPair s)) := by
  simp only [exec, execPresence]
  exact event_next (by rw [State.paired, hpair]; rfl)

theorem exec_presenceDue (hpair : s.mirror.straps.pair = true) (htx : s.mirror.tx = none) :
    exec .presenceDue s = .next (finish { s with mirror := { s.mirror with presenceDue := true } }) := by
  simp only [exec, execPresenceDue]
  exact event_next (by rw [State.paired, hpair, htx]; rfl)

theorem exec_responseRelay (hpair : s.mirror.straps.pair = true) (a : Answer) :
    exec (.responseRelay true a) s =
      .next (finish (if s.isActive then takeRelay a (hearPair s) else hearPair s)) := by
  simp only [exec, execResponseRelay]
  exact event_next (by rw [State.paired, hpair]; rfl)

theorem takeRelay_eq (a : Answer) (s : State) :
    takeRelay a s =
      if s.mirror.relayHold.length < 8 then
        { s with mirror := { s.mirror with relayHold := s.mirror.relayHold ++ [a] } }
      else s := by
  unfold takeRelay
  split <;> rfl

theorem exec_yieldRequest_standby (hpair : s.mirror.straps.pair = true) (h : s.isActive = false) :
    exec (.yieldRequest true) s = .next (finish (hearPair s)) := by
  have hpaired : (s.paired && true) = true := by rw [State.paired, hpair]; rfl
  simp only [exec, execYieldRequest]
  rw [event_next hpaired]
  simp only [show (hearPair s).isActive = false from h, Bool.false_and, Bool.false_eq_true, if_false]

theorem exec_mirrorWrite (hpair : s.mirror.straps.pair = true) (m : MirrorWrite) :
    exec (.mirrorWrite true m) s =
      .next (finish (if s.isActive then hearPair s else takeMirrorWrite m (hearPair s))) := by
  simp only [exec, execMirrorWrite]
  exact event_next (by rw [State.paired, hpair]; rfl)

theorem exec_handover (hpair : s.mirror.straps.pair = true) (n : Count16) :
    exec (.handover true n) s =
      .next (finish (if s.isActive then hearPair s else awaitHold (compareHandover n (hearPair s)))) := by
  simp only [exec, execHandover]
  exact event_next (by rw [State.paired, hpair]; rfl)

theorem exec_mirrorStop (hpair : s.mirror.straps.pair = true) :
    exec (.mirrorStop true) s =
      .next (finish
        (if s.isActive then stopMirroring .stop false (endDrain (hearPair s)) else becomeStale (hearPair s))) := by
  simp only [exec, execMirrorStop]
  exact event_next (by rw [State.paired, hpair]; rfl)

end

/-! ### A HANDOVER on a STANDBY (R171, R173) -/

theorem compareHandover_eq {s : State} (h : s.mirror.role = .standby) (n : Count16) :
    compareHandover n s =
      if n = s.mirror.expected ∧ s.mirror.group = [] then { s with mirror := { s.mirror with currency := .current } }
      else
        { s with
          notices := s.notices.counted .mirrorStale (.line .pair), mirror := { s.mirror with currency := .stale } } := by
  rw [compareHandover, countNotice_of_standby]
  exact h

theorem running_of_busy {b : Busy} {s : State} (hb : s.cu.busy = some b) (hended : b.ended = false) :
    s.cu.running = some b := by simp [CommandUnit.running, hb, hended]

theorem running_of_ended {b : Busy} {s : State} (hb : s.cu.busy = some b) (hended : b.ended = true) :
    s.cu.running = none := by simp [CommandUnit.running, hb, hended]

theorem running_of_free {s : State} (hb : s.cu.busy = none) : s.cu.running = none := by simp [CommandUnit.running, hb]

/-- A TAKEOVER that waits for its HANDOVER is the busy command, and has not ended. -/
theorem busy_of_awaitsHandover {b : Busy} {s : State} (h : s.awaitsHandover = true) (hb : s.cu.busy = some b) :
    b.ended = false := by
  cases hended : b.ended with
  | false => rfl
  | true =>
    rw [State.awaitsHandover, running_of_ended hb hended] at h
    exact absurd h Bool.false_ne_true

theorem exec_holdFallNoHandover {s : State} (hpair : s.mirror.straps.pair = true) (hstandby : s.isActive = false)
    (hawaits : s.awaitsHandover = true) :
    exec .holdFallNoHandover s =
      .next (finish (awaitHold
        { s with
          notices := s.notices.counted .mirrorStale (.line .pair)
          mirror := { s.mirror with currency := .stale } })) := by
  have hready : (s.standsBy && s.awaitsHandover) = true := by
    rw [State.standsBy, State.paired, hpair, hstandby, hawaits]
    rfl
  have hcounted := countNotice_of_standby (s := { s with mirror := { s.mirror with currency := .stale } })
    (role_of_standby hstandby) .mirrorStale (.line .pair)
  simp only [exec, execHoldFallNoHandover]
  rw [event_next hready, hcounted]

theorem exec_takeoverTimeout {b : Busy} {s : State} (hstandby : s.isActive = false) (hwrites : s.mirror.writes = [])
    (hw : s.cu.waiting = []) (hb : s.cu.busy = some b) (hawaits : s.awaitsHandover = true) :
    exec .takeoverTimeout s = .next (s.takeoverFailed b .noHandover).begun := by
  have hended := busy_of_awaitsHandover hawaits hb
  simp only [exec, execTakeoverTimeout]
  rw [event_next hawaits, flush_failTakeover (role_of_standby hstandby) hw hb hended, finish_takeoverFailed hwrites]

/-! ### The link DOWN (R164) -/

/-- The Pair Link is DOWN, and its timer stands at its limit. -/
def State.pairDown (s : State) : State := { s with mirror := { s.mirror with linkUp := false, silence := 200 } }

theorem exec_pairLinkDown {s : State} (hpair : s.mirror.straps.pair = true) (hup : s.mirror.linkUp = true) :
    exec .pairLinkDown s =
      .next (finish (if s.isActive then pairDownActive s.pairDown else pairDownStandby s.pairDown)) := by
  simp only [exec, execPairLinkDown]
  exact event_next (by rw [State.paired, hpair, hup]; rfl)

theorem pairDownActive_stale {s : State} (hc : s.mirror.currency = .stale) (hcopy : s.mirror.copy = none) :
    pairDownActive s = s.drainEnded := by
  simp [pairDownActive, MirrorUnit.running, hc, hcopy, endDrain_eq]

theorem pairDownActive_running {s : State} (h : s.mirror.currency = .current ∨ s.mirror.copy.isSome = true) :
    pairDownActive s = stopMirroring .linkDown true (endDrain s) := by
  have hrunning : s.mirror.running = true := by
    rcases h with hc | hcopy
    · simp [MirrorUnit.running, hc]
    · simp [MirrorUnit.running, hcopy]
  rw [pairDownActive, hrunning, if_pos rfl]

/-- A STANDBY with the link DOWN, before its answers are lost. -/
def State.standbyDown (s : State) : State :=
  { s with
    notices := s.notices.counted .mirrorStale (.line .pair)
    mirror := { s.mirror with
      linkUp := false, silence := 200, currency := .stale, group := [], relayList := []
      tx := s.mirror.tx.map PairTx.detach } }

theorem takeoverOpen_false {s : State}
    (h : ∀ b, s.cu.busy = some b → b.ended = true ∨ b.work ≠ .takeover false) : s.takeoverOpen = false := by
  cases hb : s.cu.busy with
  | none => simp only [State.takeoverOpen, running_of_free hb]
  | some b =>
    cases hended : b.ended with
    | true => simp only [State.takeoverOpen, running_of_ended hb hended]
    | false =>
      have hwork : b.work ≠ .takeover false := (h b hb).resolve_left (by rw [hended]; exact Bool.false_ne_true)
      simp only [State.takeoverOpen, running_of_busy hb hended, beq_eq_false_iff_ne]
      exact hwork

theorem takeoverOpen_true {b : Busy} {s : State} (hb : s.cu.busy = some b) (hended : b.ended = false)
    (hwork : b.work = .takeover false) : s.takeoverOpen = true := by
  simp only [State.takeoverOpen, running_of_busy hb hended, hwork, beq_self_eq_true]

theorem pairDownStandby_eq {s : State} (hstandby : s.isActive = false) :
    pairDownStandby s.pairDown =
      flushAnswers (if s.takeoverOpen then failTakeover .linkDown s.standbyDown else s.standbyDown) := by
  have hstale := becomeStale_standby (s := s.pairDown) (role_of_standby hstandby)
  simp only [pairDownStandby, hstale]
  rfl

/-- A takeover cut off by the link ends in FAILURE, its COMPLETION lost with every answer that waits. -/
theorem flush_failTakeover_lost {b : Busy} {s : State} (hrole : s.mirror.role = .standby)
    (hdown : s.mirror.linkUp = false) (hb : s.cu.busy = some b) (hended : b.ended = false) (why : Detail) :
    flushAnswers (failTakeover why s) = State.takeoverFailed b why { s with cu := { s.cu with waiting := [] } } := by
  have hformed := formCompletion_failure (n := Config.failedTakeoverCount s.draws) (d := some why) hb hended
  rw [countNotice_of_standby (by exact hrole)] at hformed
  rw [failTakeover, hformed, flushAnswers_lost (by exact hrole) (by exact hdown) (by simp)]
  simp only [State.takeoverFailed, State.handedOver, hdown, Bool.false_eq_true, if_false, false_and, List.any_append,
    List.any_cons, Bool.true_or, Bool.or_true, if_true]

/-- With the link DOWN an accepted FORCED TAKEOVER has its REPLY lost and its work begun (R170, R174). -/
theorem flush_forced_lost {r : Response} {b : Busy} {noted : Currency} {s : State} (hstandby : s.isActive = false)
    (hdown : s.mirror.linkUp = false) (hw : s.cu.waiting = [.response r]) (hb : s.cu.busy = some b)
    (hended : b.ended = false) (hbegun : b.begun = false) (hwork : b.work = .forcedTakeover noted) :
    flushAnswers s =
      { s with
        cu := { s.cu with
          waiting := [], busy := some { b with begun := true, work := .forcedTakeover s.mirror.currency } }
        mirror := { s.mirror with group := [], forceOut := true, stage := .pulsing, holdOut := false } } := by
  set e : State := { s with cu := { s.cu with waiting := [] } } with he
  have hs : s = e.withAnswers [.response r] := by
    show s = { s with cu := { s.cu with waiting := [.response r] } }
    rw [← hw]
  have hplaced := placed_standby_down (.response r) (s := e) hstandby hdown
  have hbegins := (answerPlaced_begins (r := r) (s := e) hb hbegun hended).trans
    (beginWork_forced (s := e) hwork hstandby)
  conv_lhs => rw [hs]
  rw [flushAnswers_one (s := e) rfl (hasPlace_standby (s := e) hstandby (fun h => nomatch hdown.symm.trans h)) ?_,
    hplaced, hbegins]
  rw [hplaced, hbegins]

/-- Settles O51: each message on either engine, then the link DOWN on either, and a wait that runs out. -/
theorem pairLinkAndMessages : Obligations.PairLinkAndMessages := by
  unfold Obligations.PairLinkAndMessages
  refine ⟨fun s hpair => ?_, fun s hpair hup hactive hdrain hc hcopy => ?_, fun s hpair hup hactive => ?_,
    fun s hpair hup hstandby hwrites => ?_,
    fun b s hstandby hwrites hw hb hawaits => exec_takeoverTimeout hstandby hwrites hw hb hawaits⟩
  · intro heard
    refine ⟨⟨_, exec_presence hpair, ended_finish (noted_refl _)⟩,
      fun htx => ⟨_, exec_presenceDue hpair htx, ended_finish (noted_refl _)⟩,
      fun a => ⟨_, exec_responseRelay hpair a, ?_⟩,
      fun hstandby => ⟨_, exec_yieldRequest_standby hpair hstandby, ended_finish (noted_refl _)⟩,
      fun hactive => ⟨fun m => ⟨_, exec_mirrorWrite hpair m, ?_⟩, fun n => ⟨_, exec_handover hpair n, ?_⟩,
        fun hdrain hcopy => ⟨_, exec_mirrorStop hpair, fun hwrites hw => ?_⟩, fun hwrites hw => ?_⟩,
      fun hstandby hwrites => ?_⟩
    · by_cases hactive : s.isActive = true
      · by_cases hroom : s.mirror.relayHold.length < 8
        · rw [if_pos hactive, if_pos ⟨hactive, hroom⟩, takeRelay_eq,
            if_pos (show (hearPair s).mirror.relayHold.length < 8 from hroom)]
          exact ended_finish (noted_refl _)
        · rw [if_pos hactive, if_neg (fun h => hroom h.2), takeRelay_eq,
            if_neg (show ¬(hearPair s).mirror.relayHold.length < 8 from hroom)]
          exact ended_finish (noted_refl _)
      · rw [if_neg hactive, if_neg (fun h => hactive h.1)]
        exact ended_finish (noted_refl _)
    · rw [if_pos hactive]
      exact ended_finish (noted_refl _)
    · rw [if_pos hactive]
      exact ended_finish (noted_refl _)
    · rw [if_pos hactive, finish_stop_none (s := hearPair s) rfl hwrites hw hcopy,
        drainEnded_none (s := hearPair s) hdrain]
      show State.begun (State.mirroringStopped (hearPair s)) = _
      rw [State.mirroringStopped, ← show (hearPair s).mirror.copy = none from hcopy]
      rfl
    · intro stopped
      rw [exec_mirrorStop hpair, if_pos hactive]
      exact ⟨fun hcopy => congrArg _ (finish_stop_none (s := hearPair s) rfl hwrites hw hcopy),
        fun k b hcopy hb hended =>
          congrArg _ (finish_stop_copy (s := hearPair s) hactive rfl hwrites hw hcopy hb hended)⟩
    · intro stale waits
      have hrole : (hearPair s).mirror.role = .standby := role_of_standby hstandby
      have hinactive : ¬s.isActive = true := by rw [hstandby]; exact Bool.false_ne_true
      have hwaits : ∀ e : State, e.mirror.stage = s.mirror.stage → e.cu = s.cu → awaitHold e = waits e := by
        intro e hstage hcu
        simp only [awaitHold, HoldStage.afterHandover, hstage, hcu, waits]
        cases s.mirror.stage with
        | settled => rfl
        | delay => rfl
        | pulsing => rfl
        | waiting cause => cases cause <;> rfl
        | claiming cause => cases cause <;> rfl
      have hleft : ∀ e : State, e.mirror.stage = s.mirror.stage → e.cu = s.cu → e.mirror.writes = [] →
          finish (awaitHold e) = (waits e).begun := by
        intro e hstage hcu hwr
        rw [hwaits e hstage hcu]
        exact finish_of_no_writes hwr
      refine ⟨?_, fun n => ?_, fun hawaits => ?_⟩
      · rw [exec_mirrorStop hpair, if_neg hinactive, becomeStale_standby hrole]
        exact congrArg _ (finish_of_no_writes hwrites)
      · rw [exec_handover hpair, if_neg hinactive, compareHandover_eq hrole]
        by_cases hmatch : n = s.mirror.expected ∧ s.mirror.group = []
        · rw [if_pos hmatch,
            if_pos (show n = (hearPair s).mirror.expected ∧ (hearPair s).mirror.group = [] from hmatch)]
          exact congrArg _ (hleft _ rfl rfl hwrites)
        · rw [if_neg hmatch,
            if_neg (show ¬(n = (hearPair s).mirror.expected ∧ (hearPair s).mirror.group = []) from hmatch)]
          exact congrArg _ (hleft _ rfl rfl hwrites)
      · rw [exec_holdFallNoHandover hpair hstandby hawaits]
        exact congrArg _ (hleft _ rfl rfl hwrites)
  · refine ⟨_, exec_pairLinkDown hpair hup, ?_⟩
    rw [if_pos hactive, pairDownActive_stale (s := s.pairDown) hc hcopy, drainEnded_none (s := s.pairDown) hdrain]
    exact ended_finish (noted_refl _)
  · intro down
    refine ⟨fun hc hcopy => ⟨_, exec_pairLinkDown hpair hup, ?_⟩, fun hwrites hw => ?_⟩
    · rw [if_pos hactive, pairDownActive_stale (s := s.pairDown) hc hcopy]
      exact ended_finish (noted_refl _)
    · intro stopped
      rw [exec_pairLinkDown hpair hup, if_pos hactive]
      refine ⟨fun hc hcopy => ?_, fun k b hcopy hb hended => ?_⟩
      · rw [pairDownActive_running (s := s.pairDown) (Or.inl hc)]
        exact congrArg _ (finish_stop_none (s := s.pairDown) rfl hwrites hw hcopy)
      · rw [pairDownActive_running (s := s.pairDown) (Or.inr (by
          rw [show s.pairDown.mirror.copy = some k from hcopy]; rfl))]
        exact congrArg _ (finish_stop_copy (s := s.pairDown) hactive rfl hwrites hw hcopy hb hended)
  · intro down
    have hrole : s.standbyDown.mirror.role = .standby := role_of_standby hstandby
    have hinactive : ¬s.isActive = true := by rw [hstandby]; exact Bool.false_ne_true
    rw [exec_pairLinkDown hpair hup, if_neg hinactive, pairDownStandby_eq hstandby]
    refine ⟨fun hw hbusy => ?_, fun hbusy => ?_, fun r b noted hw hb hended hbegun hwork => ?_,
      fun b hb hended hwork => ?_⟩
    · rw [takeoverOpen_false hbusy, if_neg Bool.false_ne_true, flushAnswers_of_none (s := s.standbyDown) hw]
      exact congrArg _ (finish_of_no_writes hwrites)
    · have hopen : s.takeoverOpen = false :=
        takeoverOpen_false fun b hb => (hbusy b hb).imp_right fun h => h.2
      have hall : s.standbyDown.cu.busy.all (fun b => b.begun || b.ended) = true := by
        show s.cu.busy.all _ = true
        rw [Option.all_eq_true]
        intro b hb
        rcases hbusy b hb with hended | ⟨hbegun, -⟩
        · rw [hended, Bool.or_true]
        · rw [hbegun, Bool.true_or]
      rw [hopen, if_neg Bool.false_ne_true, flushAnswers_lost (s := s.standbyDown) hrole rfl hall]
      exact congrArg _ (finish_of_no_writes hwrites)
    · have hopen : s.takeoverOpen = false := takeoverOpen_false fun b' hb' => by
        obtain rfl : b = b' := Option.some.inj (hb.symm.trans hb')
        exact Or.inr (by rw [hwork]; nofun)
      rw [hopen, if_neg Bool.false_ne_true,
        flush_forced_lost (s := s.standbyDown) hstandby rfl hw hb hended hbegun hwork]
      exact congrArg _ (finish_of_no_writes hwrites)
    · rw [takeoverOpen_true hb hended hwork, if_pos rfl,
        flush_failTakeover_lost (s := s.standbyDown) hrole rfl hb hended]
      exact congrArg _ (finish_takeoverFailed hwrites)

end Sys2Proof.Machine

/-! Paired engines: mirror writes as a STANDBY takes them (10_paired_engines.md, 10.2 and 10.4). -/

namespace Sys2Proof.Machine

/-! ### A message applied (R166) -/

theorem applyGroup_append (ms ns : List MirrorWrite) (s : State) :
    applyGroup (ms ++ ns) s = applyGroup ns (applyGroup ms s) := by
  induction ms generalizing s with
  | nil => rfl
  | cons m rest ih => exact ih _

theorem applyGroup_single (m : MirrorWrite) (s : State) : applyGroup [m] s = applyPayload m.payload s := rfl

/-- A STANDBY mirrors none of the writes it applies. -/
theorem applyWrite_mirror {s : State} (h : s.mirror.role = .standby) (w : TableWrite) :
    (applyWrite w s).mirror = s.mirror := by
  cases w <;>
    simp only [applyWrite, State.setPolicy, State.setProduct, State.setFeed, State.setHorizon, State.setInjector,
      State.setClock, State.setNotice, State.fillSlot, State.setSlot, State.doListOp, State.doEmitOp,
      note_of_standby h, ite_self]

theorem applyPayload_mirror {s : State} (h : s.mirror.role = .standby) (p : Payload) :
    (applyPayload p s).mirror = s.mirror := by
  cases p with
  | write w part parts =>
    by_cases hlast : part + 1 = parts
    · rw [applyPayload, if_pos hlast, applyWrite_mirror h]
    · rw [applyPayload, if_neg hlast]
  | copyBegin => rfl
  | copyEnd => rfl
  | listRun index es => rfl
  | emitRun index es => rfl

theorem applyGroup_mirror {s : State} (h : s.mirror.role = .standby) (ms : List MirrorWrite) :
    (applyGroup ms s).mirror = s.mirror := by
  induction ms generalizing s with
  | nil => rfl
  | cons m rest ih =>
    have hm := applyPayload_mirror h m.payload
    rw [applyGroup, ih (by rw [hm]; exact h), hm]

/-- An item is written with its last part. -/
theorem applyGroup_write {m : MirrorWrite} {w : TableWrite} {part parts : Nat} (h : m.payload = .write w part parts)
    (s : State) : applyGroup [m] s = if part + 1 = parts then applyWrite w s else s := by
  rw [applyGroup_single, h]
  rfl

/-- A STANDBY's table takes what is written, and nothing else changes. -/
theorem standby_tables {s t : State} (hmirror : t.mirror = s.mirror) : { t with mirror := s.mirror } = t := by
  rw [← hmirror]

/-- A live Spill List slot's share in its home set's count. -/
def spillShare (n : Nat) (k : Option CaseRecord) (set : Nat) : Nat :=
  if 2048 ≤ n ∧ k.any (fun c => c.card % 512 == set) = true then 1 else 0

theorem getD_adjustSpill_shares (n : Nat) (before after : Option CaseRecord) (spill : SMap Nat) (set : Nat) :
    SMap.getD (adjustSpill n before after spill) 0 set =
      SMap.getD spill 0 set - spillShare n before set + spillShare n after set := by
  have hshare : ∀ k : Option CaseRecord, 2048 ≤ n →
      spillShare n k set = (k.any (fun c => homeSet c.card == set)).toNat := by
    intro k hn
    show (if 2048 ≤ n ∧ k.any (fun c => homeSet c.card == set) = true then 1 else 0) = _
    cases k.any (fun c => homeSet c.card == set) <;> simp [hn]
  rw [getD_adjustSpill]
  by_cases hn : n < spillBase
  · have hn' : ¬2048 ≤ n := Nat.not_le_of_lt hn
    rw [if_pos hn, spillShare, spillShare, if_neg (fun h => hn' h.1), if_neg (fun h => hn' h.1)]
    rfl
  · have hn' : 2048 ≤ n := Nat.le_of_not_lt hn
    rw [if_neg hn, hshare before hn', hshare after hn']

/-! ### A mirror write taken (R166, R169) -/

theorem joinGroup_eq (m : MirrorWrite) (s : State) :
    joinGroup m s =
      if m.last then
        applyGroup (s.mirror.group ++ [m])
          { s with mirror := { s.mirror with expected := s.mirror.expected + 1, group := [] } }
      else
        { s with mirror := { s.mirror with expected := s.mirror.expected + 1, group := s.mirror.group ++ [m] } } := rfl

theorem joinGroup_writes {s : State} (h : s.mirror.role = .standby) (m : MirrorWrite) :
    (joinGroup m s).mirror.writes = s.mirror.writes := by
  rw [joinGroup_eq]
  cases m.last with
  | true =>
    rw [if_pos rfl, applyGroup_mirror]
    exact h
  | false => rfl

theorem takes_iff (m : MirrorUnit) (w : MirrorWrite) :
    m.takes w = true ↔
      m.currency = .current ∨ m.copyRx = .taking ∨ (m.copyRx = .idle ∧ w.copyStep = true) := by
  rw [MirrorUnit.takes, Bool.or_eq_true, beq_iff_eq]
  cases m.copyRx <;> simp

theorem afterGap_eq (w : MirrorWrite) (c : CopyTaking) :
    c.afterGap w = if w.copyStep = true ∨ c ≠ .idle then .missed else .idle := by
  cases c with
  | idle => cases h : w.copyStep <;> simp [CopyTaking.afterGap, h]
  | taking => simp [CopyTaking.afterGap]
  | missed => simp [CopyTaking.afterGap]

/-- A gap makes the STANDBY STALE, whatever it was, and it sends a MIRROR STOP. -/
theorem gapFound_eq {s : State} (h : s.mirror.role = .standby) (w : MirrorWrite) :
    gapFound w s =
      { s with
        notices := if s.mirror.currency = .current then s.notices.counted .mirrorStale (.line .pair) else s.notices
        mirror := { s.mirror with
          currency := .stale, group := [], stopDue := true
          copyRx := if w.copyStep = true ∨ s.mirror.copyRx ≠ .idle then .missed else .idle } } := by
  rw [gapFound, ← afterGap_eq]
  by_cases hc : s.mirror.currency = .current
  · simp only [if_pos hc]
    rw [becomeStale_standby]
    · rfl
    · exact h
  · have hstale : s.mirror.currency = .stale := by
      cases hcur : s.mirror.currency with
      | stale => rfl
      | current => exact absurd hcur hc
    simp only [if_neg hc]
    rw [← hstale]
    rfl

theorem takeExpected_of_not_end {w : MirrorWrite} (h : w.payload ≠ .copyEnd) (s : State) :
    takeExpected w s =
      joinGroup w { s with mirror := { s.mirror with copyRx := if w.copyStep then .taking else s.mirror.copyRx } } := by
  rw [takeExpected, takeCopyEnd, if_neg h]

theorem takeExpected_writes {s : State} (h : s.mirror.role = .standby) (w : MirrorWrite) :
    (takeExpected w s).mirror.writes = s.mirror.writes := by
  unfold takeExpected takeCopyEnd
  split
  · exact joinGroup_writes (s := { s with mirror := { s.mirror with
      copyRx := if w.copyStep then .taking else s.mirror.copyRx } }) h w
  · exact joinGroup_writes (s := { s with mirror := { s.mirror with
      copyRx := if w.copyStep then .taking else s.mirror.copyRx } }) h w

/-- Settles O53: a mirror write by what the STANDBY expects, and the messages of a group one by one. -/
theorem standbyTakesMirrorWrites : Obligations.StandbyTakesMirrorWrites := by
  unfold Obligations.StandbyTakesMirrorWrites
  refine ⟨fun m s hpair hstandby hwrites => ?_, applyGroup_append, fun m s hstandby => ?_⟩
  · intro heard copyAfter joined
    have hrole : (hearPair s).mirror.role = .standby := role_of_standby hstandby
    have hinactive : ¬s.isActive = true := by rw [hstandby]; exact Bool.false_ne_true
    rw [exec_mirrorWrite hpair, if_neg hinactive]
    unfold takeMirrorWrite
    by_cases hbegin : m.payload = .copyBegin
    · rw [if_pos hbegin, if_pos hbegin]
      exact congrArg _ (finish_of_no_writes hwrites)
    rw [if_neg hbegin, if_neg hbegin]
    by_cases htakes : s.mirror.currency = .current ∨ s.mirror.copyRx = .taking ∨
        (s.mirror.copyRx = .idle ∧ m.copyStep = true)
    · rw [if_pos htakes, if_pos ((takes_iff (hearPair s).mirror m).mpr htakes)]
      by_cases hnumber : m.number = s.mirror.expected
      · rw [if_pos hnumber, if_pos (show m.number = (hearPair s).mirror.expected from hnumber)]
        refine congrArg Host.Outcome.next ((finish_of_no_writes ((takeExpected_writes hrole m).trans hwrites)).trans ?_)
        by_cases hend : m.payload = .copyEnd
        · rw [if_pos hend, takeExpected, takeCopyEnd, if_pos hend]
          rfl
        · rw [if_neg hend, takeExpected_of_not_end hend]
          rfl
      · rw [if_neg hnumber, if_neg (show ¬m.number = (hearPair s).mirror.expected from hnumber), gapFound_eq hrole]
        exact congrArg _ (finish_of_no_writes hwrites)
    · rw [if_neg htakes, if_neg (fun h => htakes ((takes_iff (hearPair s).mirror m).mp h))]
      exact congrArg _ (finish_of_no_writes hwrites)
  · have hrole := role_of_standby hstandby
    cases hp : m.payload with
    | copyBegin => rw [applyGroup_single, hp]; rfl
    | copyEnd => rw [applyGroup_single, hp]; rfl
    | listRun i es => rw [applyGroup_single, hp]; rfl
    | emitRun i es => rw [applyGroup_single, hp]; rfl
    | write w part parts =>
      have hwritten := applyGroup_write hp s
      refine ⟨fun hpart => hwritten.trans (if_neg hpart), fun hlast => ?_⟩
      rw [if_pos hlast, ← standby_tables (applyWrite_mirror hrole w)] at hwritten
      cases w with
      | policy p => exact hwritten
      | product code e => exact hwritten
      | feed n e => exact hwritten
      | horizon h => exact hwritten
      | list i => exact hwritten
      | clock c => exact hwritten
      | notice c e => exact hwritten
      | slot n x =>
        refine ⟨adjustSpill n (s.caseAt n) x.case s.spill,
          getD_adjustSpill_shares n (s.caseAt n) x.case s.spill, hwritten⟩
      | listOp op => cases op <;> exact hwritten
      | emitOp op => cases op <;> exact hwritten

end Sys2Proof.Machine

/-! Paired engines: the groups of the Mirror Queue (10_paired_engines.md, 10.2 and 10.3). -/

namespace Sys2Proof.Machine

/-! ### Numbered messages (R165) -/

theorem numbered_cons (first : Count16) (copyStep : Bool) (p : Payload) (rest : List Payload) :
    numbered first copyStep (p :: rest) =
      .write ⟨first, rest.isEmpty, copyStep, p⟩ :: numbered (first + 1) copyStep rest := by
  have hlast : decide (0 + 1 = (p :: rest).length) = rest.isEmpty := by cases rest <;> simp
  have hnext : ∀ i : Nat, first + BitVec.ofNat 16 (i + 1) = first + 1 + BitVec.ofNat 16 i := by
    intro i
    rw [BitVec.add_assoc, Nat.add_comm i 1, BitVec.ofNat_add]
    rfl
  have hmark : ∀ i : Nat, decide (i + 1 + 1 = (p :: rest).length) = decide (i + 1 = rest.length) := by
    intro i
    rw [List.length_cons, decide_eq_decide]
    omega
  rw [numbered, List.mapIdx_cons, hlast]
  refine congrArg₂ List.cons ?_ (congrArg (fun f => List.mapIdx f rest) ?_)
  · rw [show first + BitVec.ofNat 16 0 = first from BitVec.add_zero first]
  · funext i q
    rw [hmark, hnext]

theorem numbered_length (first : Count16) (copyStep : Bool) (ps : List Payload) :
    (numbered first copyStep ps).length = ps.length := List.length_mapIdx

/-- A Mirror Unit that has taken messages as one group. -/
def MirrorUnit.withGroup (copyStep : Bool) (ps : List Payload) (m : MirrorUnit) : MirrorUnit :=
  { m with queue := m.queue ++ numbered m.next copyStep ps, next := m.next + BitVec.ofNat 16 ps.length }

theorem withGroup_nil (copyStep : Bool) (m : MirrorUnit) : m.withGroup copyStep [] = m := by
  show { m with queue := m.queue ++ [], next := m.next + 0#16 } = m
  rw [List.append_nil, BitVec.add_zero]

theorem withGroup_cons (copyStep : Bool) (p : Payload) (rest : List Payload) (m : MirrorUnit) :
    m.withGroup copyStep (p :: rest) = (m.enqueue p rest.isEmpty copyStep).withGroup copyStep rest := by
  have hnext : m.next + BitVec.ofNat 16 (rest.length + 1) = m.next + 1 + BitVec.ofNat 16 rest.length := by
    rw [BitVec.add_assoc, Nat.add_comm rest.length 1, BitVec.ofNat_add]
    rfl
  simp only [MirrorUnit.withGroup, MirrorUnit.enqueue, numbered_cons, List.append_assoc, List.singleton_append,
    List.length_cons, hnext]

/-- A group that has room is placed whole. -/
theorem placeGroup_room {ps : List Payload} {s : State} (h : s.mirror.queue.length + ps.length ≤ 128) :
    placeGroup ps s = { s with mirror := s.mirror.withGroup false ps } := by
  induction ps generalizing s with
  | nil => rw [withGroup_nil]; rfl
  | cons p rest ih =>
    rw [List.length_cons] at h
    rw [placeGroup, if_pos (show s.mirror.queue.length < 128 by omega), ih, withGroup_cons]
    show (s.mirror.queue ++ [_]).length + rest.length ≤ 128
    rw [List.length_append, List.length_singleton]
    omega

/-- A group that has none overflows the queue, and mirroring stops (R165, R167). -/
theorem placeGroup_overflow {ps : List Payload} {s : State} (h : s.mirror.queue.length ≤ 128)
    (hover : 128 < s.mirror.queue.length + ps.length) :
    ∃ q n, placeGroup ps s =
      stopMirroring .overflow true
        { s with mirror := { s.mirror with queue := s.mirror.queue ++ q, next := n } } := by
  induction ps generalizing s with
  | nil => rw [List.length_nil] at hover; omega
  | cons p rest ih =>
    rw [List.length_cons] at hover
    rw [placeGroup]
    by_cases hroom : s.mirror.queue.length < 128
    · have hlen : (s.mirror.enqueue p rest.isEmpty false).queue.length = s.mirror.queue.length + 1 := by
        show (s.mirror.queue ++ [_]).length = _
        rw [List.length_append, List.length_singleton]
      obtain ⟨q, n, hplaced⟩ := ih (s := { s with mirror := s.mirror.enqueue p rest.isEmpty false })
        (by rw [hlen]; omega) (by rw [hlen]; omega)
      refine ⟨.write ⟨s.mirror.next, rest.isEmpty, false, p⟩ :: q, n, ?_⟩
      rw [if_pos hroom, hplaced, ← List.singleton_append (l := q), ← List.append_assoc]
      rfl
    · refine ⟨[], s.mirror.next, ?_⟩
      rw [if_neg hroom, List.append_nil]

/-- The payloads of the event's writes. -/
def State.groupOf (s : State) : List Payload := s.mirror.writes.flatMap TableWrite.payloads

theorem closeGroup_room {s : State} (h : s.mirror.queue.length + s.groupOf.length ≤ 128) :
    closeGroup s = { s with mirror := { s.mirror with writes := [] }.withGroup false s.groupOf } :=
  placeGroup_room (s := { s with mirror := { s.mirror with writes := [] } }) h

theorem closeGroup_overflow {s : State} (h : s.mirror.queue.length ≤ 128)
    (hover : 128 < s.mirror.queue.length + s.groupOf.length) :
    ∃ q n, closeGroup s =
      stopMirroring .overflow true
        { s with mirror := { s.mirror with writes := [], queue := s.mirror.queue ++ q, next := n } } :=
  placeGroup_overflow (s := { s with mirror := { s.mirror with writes := [] } }) h hover

/-! ### Answers placed beside mirroring -/

/-- A Mirror Unit to whose relay list answers have gone. -/
def MirrorUnit.withRelays (as : List Answer) (m : MirrorUnit) : MirrorUnit :=
  { m with relayList := m.relayList ++ as }

theorem withRelays_nil (m : MirrorUnit) : m.withRelays [] = m := by
  rw [MirrorUnit.withRelays, List.append_nil]

/-- Answers placed while no busy command waits to begin reach the relay list of a STANDBY at most. -/
theorem placeAnswers_mirror (k : Nat) {s : State} (h : s.cu.busy.all (fun b => b.begun || b.ended) = true) :
    ∃ as, (placeAnswers k s).mirror = s.mirror.withRelays as ∧ (s.isActive = true → as = []) := by
  induction k generalizing s with
  | zero => exact ⟨[], (withRelays_nil _).symm, fun _ => rfl⟩
  | succ k ih =>
    rw [placeAnswers]
    by_cases hplace : (s.hasPlace && !s.cu.waiting.isEmpty) = true
    · rw [if_pos hplace]
      cases hw : s.cu.waiting with
      | nil => rw [hw, List.isEmpty_nil, Bool.not_true, Bool.and_false] at hplace; exact absurd hplace nofun
      | cons a rest =>
        rw [placeAnswer_of_waiting hw]
        set x : State := State.placed a { s with cu := { s.cu with waiting := rest } } with hx
        obtain ⟨hmirror, hbusy, -⟩ := answerPlaced_of_ended a (s := x) h
        obtain ⟨as, has, hnone⟩ := ih hbusy
        have hplaced : ∃ bs, x.mirror = s.mirror.withRelays bs ∧ (s.isActive = true → bs = []) := by
          cases hactive : s.isActive with
          | true =>
            rw [hx, placed_active a (s := { s with cu := { s.cu with waiting := rest } }) hactive]
            exact ⟨[], (withRelays_nil _).symm, fun _ => rfl⟩
          | false =>
            cases hl : s.mirror.linkUp with
            | true =>
              rw [hx, placed_standby_up a (s := { s with cu := { s.cu with waiting := rest } }) hactive hl]
              exact ⟨[a], rfl, nofun⟩
            | false =>
              rw [hx, placed_standby_down a (s := { s with cu := { s.cu with waiting := rest } }) hactive hl]
              exact ⟨[], (withRelays_nil _).symm, nofun⟩
        obtain ⟨bs, hbs, hnone'⟩ := hplaced
        refine ⟨bs ++ as, ?_, fun hactive => ?_⟩
        · rw [has, hmirror, hbs]
          simp only [MirrorUnit.withRelays, List.append_assoc]
        · have hactive' : (answerPlaced a x).isActive = true := by
            show ((answerPlaced a x).mirror.role == .active) = true
            rw [hmirror, hbs]
            exact hactive
          rw [hnone' hactive, hnone hactive', List.append_nil]
    · rw [if_neg hplace]
      exact ⟨[], (withRelays_nil _).symm, fun _ => rfl⟩

theorem flushAnswers_mirror {s : State} (h : s.cu.busy.all (fun b => b.begun || b.ended) = true) :
    ∃ as, (flushAnswers s).mirror = s.mirror.withRelays as ∧ (s.isActive = true → as = []) :=
  placeAnswers_mirror _ h

theorem flushAnswers_mirror_active {s : State} (hactive : s.isActive = true)
    (h : s.cu.busy.all (fun b => b.begun || b.ended) = true) : (flushAnswers s).mirror = s.mirror := by
  obtain ⟨as, has, hnone⟩ := flushAnswers_mirror h
  rw [has, hnone hactive, withRelays_nil]

theorem countNotice_stopped (report : Bool) (c : NoticeClass) (sub : Subject) (s : State) :
    (countNotice c sub { s with mirror := s.mirror.stopped report }).mirror = s.mirror.stopped report := by
  have hnoted := noted_countNotice (noted_refl { s with mirror := s.mirror.stopped report }) c sub
  rw [noted_eq hnoted]
  exact calm_live.mpr ⟨rfl, by simp [MirrorUnit.live, MirrorUnit.stopped]⟩

/-- Mirroring that stops with no copy and no busy command about to begin (R167). -/
theorem stopMirroring_mirror {why : Detail} {report : Bool} {s : State} (hcopy : s.mirror.copy = none)
    (h : s.cu.busy.all (fun b => b.begun || b.ended) = true) :
    ∃ as, (stopMirroring why report s).mirror = (s.mirror.stopped report).withRelays as := by
  simp only [stopMirroring, hcopy]
  obtain ⟨as, has, -⟩ := flushAnswers_mirror
    (s := countNotice .mirrorStale (.line .pair) { s with mirror := s.mirror.stopped report }) h
  exact ⟨as, has.trans (by rw [countNotice_stopped])⟩

theorem formCompletion_true_mirror (n : Nat) (d : Option Detail) (s : State) :
    (formCompletion true n d s).mirror = s.mirror := rfl

/-! ### The writes of an event (R165) -/

/-- An event has noted these writes, and nothing else of the Mirror Unit has changed. -/
def Wrote (s : State) (ws : List TableWrite) (e : State) : Prop := e.mirror = { s.mirror with writes := ws }

theorem wrote_nil {s e : State} (hs : s.mirroring) (h : e.mirror = s.mirror) : Wrote s [] e := by
  obtain ⟨-, -, -, hwrites⟩ := hs
  rw [Wrote, h, ← hwrites]

theorem addWrite_new {w : TableWrite} {ws : List TableWrite} (h : w.whole = true → ∀ v ∈ ws, v.item ≠ w.item) :
    addWrite w ws = ws ++ [w] := by
  have hnone : (w.whole && ws.any (fun v => v.item == w.item)) = false := by
    cases hwhole : w.whole with
    | false => rfl
    | true =>
      rw [Bool.true_and, List.any_eq_false]
      intro v hv
      rw [beq_iff_eq]
      exact h hwhole v hv
  rw [addWrite, hnone, if_neg Bool.false_ne_true]

theorem mirrors_of_current {m : MirrorUnit} (hpair : m.straps.pair = true) (hrole : m.role = .active)
    (hcurrent : m.currency = .current) (w : TableWrite) : m.mirrors w = true := by
  simp [MirrorUnit.mirrors, hpair, hrole, hcurrent]

section
variable {s e e' : State} {ws : List TableWrite}

/-- A write of an item that the event has not written yet is noted behind the others. -/
theorem Wrote.note (h : Wrote s ws e) (hs : s.mirroring) {w : TableWrite}
    (hnew : w.whole = true → ∀ v ∈ ws, v.item ≠ w.item) (he : e'.mirror = e.mirror.note w) :
    Wrote s (ws ++ [w]) e' := by
  obtain ⟨hpair, hactive, hcurrent, -⟩ := hs
  have hmirrors : e.mirror.mirrors w = true := by
    rw [h]
    exact mirrors_of_current hpair (role_of_active hactive) hcurrent w
  rw [Wrote, he, MirrorUnit.note, if_pos hmirrors, h]
  simp only [addWrite_new hnew]

theorem Wrote.same (h : Wrote s ws e) (he : e'.mirror = e.mirror) : Wrote s ws e' := he.trans h

/-- A change of a notice class is written where it is one (R152). -/
theorem Wrote.countNotice (h : Wrote s ws e) (hs : s.mirroring) {c : NoticeClass} {sub : Subject}
    (hkeep : e.notices = s.notices) (hnew : ∀ v ∈ ws, v.item ≠ 323 + c.code) :
    Wrote s (ws ++ s.noticeWrite c sub) (Machine.countNotice c sub e) := by
  have hat : e.noticeAt c = s.noticeAt c := congrFun (noticeAt_congr hkeep) c
  have hcounted : ({ e.noticeAt c with count := bump (e.noticeAt c).count, subject := some sub } : NoticeEntry) =
      s.countedEntry c sub := by rw [hat]; rfl
  rw [Machine.countNotice, hcounted, State.noticeWrite]
  by_cases hsame : s.countedEntry c sub = s.noticeAt c
  · rw [if_pos hsame, List.append_nil]
    exact h.same (by rw [setNotice_mirror, hat, if_pos hsame])
  · rw [if_neg hsame]
    exact h.note hs (fun _ => hnew) (by rw [setNotice_mirror, hat, if_neg hsame])

theorem pump_next (m : MirrorUnit) : m.pump.next = m.next := by
  unfold MirrorUnit.pump; repeat' split
  all_goals rfl

/-- What an event with these writes leaves of the mirroring (`State.hasMirrored`). -/
theorem hasMirrored_finish (h : Wrote s ws e) (hs : s.mirroring) : s.hasMirrored ws (finish e) := by
  intro hroom
  obtain ⟨-, -, hcurrent, -⟩ := hs
  rw [State.withWrites, List.length_append, numbered_length] at hroom
  have hgroup : e.groupOf = ws.flatMap TableWrite.payloads := by rw [State.groupOf, h]
  have hclosed := closeGroup_room (s := e) (by rw [hgroup, h]; exact hroom)
  have hfinish : (finish e).mirror = ({ e.mirror with writes := [] }.withGroup false e.groupOf).pump := by
    show (closeGroup e).mirror.pump = _
    rw [hclosed]
  rw [hfinish, pump_queue, pump_currency, pump_next, hgroup, h]
  exact ⟨rfl, hcurrent, rfl⟩

/-- The same of a command, whose answer takes a place or waits for one. -/
theorem hasMirrored_respond (h : Wrote s ws e) (hs : s.mirroring) (hbusy : e.cu.busy = none) (c : Control)
    (v : Verdict) : s.hasMirrored ws (finish (respond c ⟨e, none, v⟩)) := by
  refine hasMirrored_finish (h.same ?_) hs
  obtain ⟨-, hactive, -, -⟩ := hs
  have hactive' : e.isActive = true := by
    show (e.mirror.role == .active) = true
    rw [h]
    exact hactive
  rw [respond_eq]
  refine flushAnswers_mirror_active (s := e.withAnswers [e.response c v]) hactive' ?_
  show e.cu.busy.all _ = true
  rw [hbusy]
  rfl

end

end Sys2Proof.Machine

/-! Paired engines: messages sent and the copy's steps (10_paired_engines.md, 10.2 and 10.4). -/

namespace Sys2Proof.Machine

/-! ### A group closed (R165) -/

/-- An overflow leaves the view STALE and of the Mirror Queue no more than the message in transmission. -/
theorem closeGroup_overflowed {s : State} (h : s.mirror.queue.length ≤ 128)
    (hover : 128 < s.mirror.queue.length + s.groupOf.length) (hbusy : s.cu.busy = none) (hcopy : s.mirror.copy = none) :
    (closeGroup s).mirror.currency = .stale ∧ (closeGroup s).mirror.queue.length ≤ 1 ∧
      (closeGroup s).mirror.stopDue = (s.mirror.stopDue || s.mirror.linkUp) := by
  obtain ⟨q, n, hclosed⟩ := closeGroup_overflow h hover
  obtain ⟨as, has⟩ := stopMirroring_mirror (why := .overflow) (report := true)
    (s := { s with mirror := { s.mirror with writes := [], queue := s.mirror.queue ++ q, next := n } }) hcopy
    (by show s.cu.busy.all _ = true; rw [hbusy]; rfl)
  rw [hclosed, has]
  refine ⟨rfl, ?_, rfl⟩
  show (if s.mirror.sendingQueued then (s.mirror.queue ++ q).take 1 else []).length ≤ 1
  by_cases hsending : s.mirror.sendingQueued = true
  · rw [if_pos hsending]
    exact List.length_take_le _ _
  · rw [if_neg hsending]
    exact Nat.zero_le _

/-! ### A message sent (R164, R170) -/

theorem exec_pairMessageSent {m : PairTx} {s : State} (htx : s.mirror.tx = some m) (hend : m.isCopyEnd = false) :
    exec .pairMessageSent s = .next (finish (messageSent m s)) := by
  simp only [exec, execPairMessageSent, htx]
  exact event_next (by rw [hend]; rfl)

theorem exec_copyEndSent {m : PairTx} {s : State} (htx : s.mirror.tx = some m) (hend : m.isCopyEnd = true) :
    exec .copyEndSent s = .next (finish (copyDone (messageSent m s))) := by
  simp only [exec, execCopyEndSent, htx]
  exact event_next hend

/-- The oldest message has left the Mirror Queue. -/
def State.queuedSent (s : State) : State :=
  { s with mirror := { s.mirror with tx := none, queue := s.mirror.queue.tail } }

/-- The relay in transmission has left the relay list. -/
def State.relaySent (s : State) : State :=
  { s with mirror := { s.mirror with tx := none, relayList := s.mirror.relayList.tail } }

/-- A message that stands in no queue has been sent. -/
def State.messageDone (s : State) : State := { s with mirror := { s.mirror with tx := none } }

theorem messageSent_relay (a : Answer) (held : Bool) (s : State) :
    messageSent (.relay a held) s =
      if held && !s.isActive then flushAnswers s.relaySent else s.messageDone := rfl

theorem messageSent_copyEnd {m : PairTx} (h : m.isCopyEnd = true) (s : State) : messageSent m s = s.queuedSent := by
  cases m with
  | queued q => rfl
  | stop => exact absurd h nofun
  | relay a held => exact absurd h nofun
  | yieldRequest => exact absurd h nofun
  | presence => exact absurd h nofun

/-- One place in the relay list, for the oldest answer that waits (R170). -/
theorem flushAnswers_first {x : Answer} {rest : List Answer} {s : State} (hw : s.cu.waiting = x :: rest)
    (hplace : s.hasPlace = true)
    (hfull : (answerPlaced x (State.placed x { s with cu := { s.cu with waiting := rest } })).hasPlace = false) :
    flushAnswers s = answerPlaced x (State.placed x { s with cu := { s.cu with waiting := rest } }) := by
  have hready : (s.hasPlace && !s.cu.waiting.isEmpty) = true := by rw [hplace, hw]; rfl
  rw [flushAnswers, show s.cu.waiting.length + 2 = (s.cu.waiting.length + 1) + 1 from rfl, placeAnswers, if_pos hready,
    placeAnswer_of_waiting hw, placeAnswers, hfull]
  rfl

theorem hasPlace_full {s : State} (hstandby : s.isActive = false) (hl : s.mirror.linkUp = true)
    (h : s.mirror.relayList.length = 8) : s.hasPlace = false := by
  simp [State.hasPlace, hstandby, hl, h]

/-- The relay list of a STANDBY, full but for the relay just sent, takes the oldest answer that waits. -/
def State.relayTaken (x : Answer) (rest : List Answer) (s : State) : State :=
  { s with
    cu := { s.cu with waiting := rest }
    mirror := { s.mirror with tx := none, relayList := s.mirror.relayList.tail ++ [x] } }

section
variable {x : Answer} {rest : List Answer} {s : State}

theorem flush_relaySent {e : State} (hstandby : s.isActive = false) (hl : s.mirror.linkUp = true)
    (hlen : s.mirror.relayList.length = 8) (hw : s.cu.waiting = x :: rest)
    (he : answerPlaced x (s.relayTaken x rest) = e)
    (hlist : e.mirror.relayList = s.mirror.relayList.tail ++ [x]) (hup : e.mirror.linkUp = true)
    (hrole : e.isActive = false) : flushAnswers s.relaySent = e := by
  have htail : s.mirror.relayList.tail.length = 7 := by rw [List.length_tail, hlen]
  have hplaced : State.placed x { s.relaySent with cu := { s.relaySent.cu with waiting := rest } } =
      s.relayTaken x rest :=
    placed_standby_up x (s := { s.relaySent with cu := { s.relaySent.cu with waiting := rest } }) hstandby hl
  have hfull : e.hasPlace = false :=
    hasPlace_full hrole hup (by rw [hlist, List.length_append, htail, List.length_singleton])
  have hplace : s.relaySent.hasPlace = true :=
    hasPlace_standby (s := s.relaySent) hstandby fun _ => by
      show s.mirror.relayList.tail.length < 8
      omega
  rw [flushAnswers_first (s := s.relaySent) hw hplace (by rw [hplaced, he]; exact hfull), hplaced, he]

end

/-! ### The copy's steps (R168, R169) -/

theorem placeSteps_eq (ps : List Payload) (m : MirrorUnit) : placeSteps ps m = m.withGroup true ps := by
  induction ps generalizing m with
  | nil => exact (withGroup_nil true m).symm
  | cons p rest ih => rw [placeSteps, ih, withGroup_cons]

theorem placeStep_eq (k : Copy) (s : State) :
    placeStep k s =
      { s with
        mirror := { s.mirror.withGroup true (nextSteps k s) with
          copy := some k.advance
          currency := if k.begun then s.mirror.currency else .stale } } := by
  rw [placeStep, placeSteps_eq]
  rfl

theorem exec_copyItemPlaced {k : Copy} {s : State} (hpair : s.mirror.straps.pair = true) (hactive : s.isActive = true)
    (hcopy : s.mirror.copy = some k) (hended : k.ended = false) :
    exec .copyItemPlaced s =
      event (decide (s.mirror.queue.length + (nextSteps k s).length ≤ 128)) (placeStep k) s := by
  simp only [exec, execCopyItemPlaced, hcopy, State.paired, hpair, hactive, hended, Bool.not_false, Bool.true_and,
    stepRoom]

theorem nextSteps_begun {k : Copy} (h : k.begun = true) (s : State) :
    nextSteps k s = if k.items < 2454 then copyPayloads k.items s else [.copyEnd] := by
  simp only [nextSteps, h, Bool.not_true, Bool.false_eq_true, if_false, copyItems]
  rfl

theorem nextSteps_waiting {k : Copy} (h : k.begun = false) (s : State) : nextSteps k s = [.copyBegin] := by
  simp only [nextSteps, h, Bool.not_false, if_true]

theorem advance_begun {k : Copy} (h : k.begun = true) :
    k.advance = if k.items < 2454 then { k with items := k.items + 1 } else { k with ended := true } := by
  simp only [Copy.advance, h, Bool.not_true, Bool.false_eq_true, if_false, copyItems]

theorem advance_waiting {k : Copy} (h : k.begun = false) : k.advance = { k with begun := true } := by
  simp only [Copy.advance, h, Bool.not_false, if_true]

/-- The work of a copy whose COPY END has been sent (R169). -/
def State.copied (s : State) : State := { s with mirror := { s.mirror with currency := .current, copy := none } }

theorem copyDone_ended {k : Copy} {s : State} (hcopy : s.mirror.copy = some k) (hended : k.ended = true) :
    copyDone s = flushAnswers (formCompletion true 2454 none s.copied) := by
  simp only [copyDone, hcopy, hended, if_true]
  rfl

theorem copyDone_idle {s : State} (h : ∀ k, s.mirror.copy = some k → k.ended = false) : copyDone s = s := by
  cases hcopy : s.mirror.copy with
  | none => simp only [copyDone, hcopy]
  | some k => simp only [copyDone, hcopy, h k hcopy, Bool.false_eq_true, if_false]

/-- A copy at its end: the view is CURRENT, and the COMPLETION of SUCCESS has its place or waits for it. -/
theorem finish_copyDone {k : Copy} {b : Busy} {s : State} (hcopy : s.mirror.copy = some k) (hended : k.ended = true)
    (hactive : s.isActive = true) (hb : s.cu.busy = some b) (hbusy : b.ended = false) :
    (finish (copyDone s)).tables = s.tables ∧
    (finish (copyDone s)).holdsAnswer
      (.completion ⟨b.tag, b.work.code, s.mirror.straps.member, true, 2454, none⟩) ∧
    (s.mirror.writes = [] →
      (finish (copyDone s)).mirror.currency = .current ∧ (finish (copyDone s)).mirror.copy = none) := by
  have hkept := kept_flushAnswers (formCompletion true 2454 none s.copied)
  have hrole : (formCompletion true 2454 none s.copied).mirror.role = .active := role_of_active hactive
  have hformed : (formCompletion true 2454 none s.copied).holdsAnswer
      (.completion ⟨b.tag, b.work.code, s.mirror.straps.member, true, 2454, none⟩) := by
    rw [formCompletion_success (s := s.copied) hb hbusy]
    exact Or.inr (List.mem_append_right _ (List.mem_singleton_self _))
  obtain ⟨hcurrency, hcopy', hwrites', -⟩ :=
    placeAnswers_of_ended ((formCompletion true 2454 none s.copied).cu.waiting.length + 2)
      (formCompletion_ended true 2454 none s.copied)
  rw [copyDone_ended hcopy hended]
  refine ⟨(finish_tables _).trans (hkept.tables.trans (kept_formCompletion true 2454 none s.copied).tables),
    finish_answers (hkept.role.trans hrole) (hkept.answers hrole _ hformed), fun hwrites => ?_⟩
  rw [finish_of_no_writes (s := flushAnswers _) (hwrites'.trans hwrites)]
  exact ⟨(pump_currency _).trans hcurrency, (pump_copy _).trans hcopy'⟩

end Sys2Proof.Machine

/-! Paired engines: the writes of an event as the Mirror Queue takes them (10_paired_engines.md, 10.2; log entries 8
and 9). -/

namespace Sys2Proof.Machine

section
variable {s e e' : State} {ws : List TableWrite}

/-- A write noted only where the item changes (log entry 9). -/
theorem Wrote.noteIf (h : Wrote s ws e) (hs : s.mirroring) {p : Prop} [Decidable p] {w : TableWrite}
    (hnew : ∀ v ∈ ws, v.item ≠ w.item) (he : e'.mirror = if p then e.mirror else e.mirror.note w) :
    Wrote s (ws ++ if p then [] else [w]) e' := by
  by_cases hp : p
  · rw [if_pos hp] at he ⊢
    rw [List.append_nil]
    exact h.same he
  · rw [if_neg hp] at he ⊢
    exact h.note hs (fun _ => hnew) he

theorem Wrote.removeEmission (h : Wrote s ws e) (hs : s.mirroring) (a : Handle) (k : EmitKind) :
    Wrote s (ws ++ (e.emission a k).toList.map (fun x => .emitOp (.remove x))) (removeEmission a k e) := by
  unfold Machine.removeEmission
  cases e.emission a k with
  | none =>
    rw [Option.toList_none, List.map_nil, List.append_nil]
    exact h
  | some x => exact h.note hs nofun rfl

end

section
variable {s : State}

theorem mirroring_active (hs : s.mirroring) : s.isActive = true := by
  obtain ⟨-, hactive, -, -⟩ := hs
  exact hactive

/-- The first write of an event. -/
theorem wrote_first {e e' : State} (hs : s.mirroring) (h : e.mirror = s.mirror) {w : TableWrite}
    (he : e'.mirror = e.mirror.note w) : Wrote s [w] e' :=
  (wrote_nil hs h).note hs (fun _ _ hv => absurd hv List.not_mem_nil) he

/-! ### The walk, TIME and SWEEP -/

theorem finalized_of_final {c : CaseRecord} (h : c.flags.tallyFinal = true) (vs : Nat) : finalized vs c = c := by
  have hsame : ({ c with flags := { c.flags with tallyFinal := true } } : CaseRecord) = c := by rw [← h]
  rw [finalized_eq, hsame, ite_self]

theorem mirrored_settlement (hs : s.mirroring) {p : Nat} {again : Bool} {c : CaseRecord}
    (hwalk : s.walk = some ⟨p, again⟩)
    (hc : s.caseAt p = some c) (hphase : c.phase = .bound) (hfinal : c.flags.tallyFinal = true) :
    ∃ t, exec .walkVisit s = .next t ∧
      s.hasMirrored
        ([.slot p { use := (s.slotAt p).use, case := some { c with settleTime := some s.clock.time, phase := .settled } },
          .emitOp (.append ⟨s.handleAt p, .settlement, false⟩)] ++
          s.noticeWrite .caseSettled (.handle (s.handleAt p))) t := by
  set e : State := { s with walk := Walk.advance ⟨p, again⟩ }
  refine ⟨_, exec_walkVisit (mirroring_active hs) hwalk, hasMirrored_finish ?_ hs⟩
  rw [visitSlot_of_some (s := e) hc, visitCase_bound hphase, finalized_of_final hfinal, if_pos hfinal]
  have hslot := wrote_first (e := e) (e' := e.setCase p { c with settleTime := some s.clock.time, phase := .settled }) hs
    rfl rfl
  have hentry := hslot.note hs (w := .emitOp (.append ⟨s.handleAt p, .settlement, false⟩))
    (e' := (e.setCase p { c with settleTime := some s.clock.time, phase := .settled }).doEmitOp
      (.append ⟨s.handleAt p, .settlement, false⟩)) nofun rfl
  refine hentry.countNotice hs rfl fun v hv => ?_
  rcases List.mem_append.mp hv with hv | hv
  · obtain rfl := List.mem_singleton.mp hv
    show 340 + p ≠ 326
    omega
  · obtain rfl := List.mem_singleton.mp hv
    show 2453 ≠ 326
    omega

theorem mirrored_time (hs : s.mirroring) {f : Frame} {rest : List Frame} (hrx : s.centre.rx = f :: rest)
    (hkind : f.kind = kindTime) (hroom : s.downQueue.length < 128) (hlen : f.body.length = 4)
    (hlater : s.clock.time < fieldAt 0 4 f.body) :
    ∃ t, exec .time s = .next t ∧ s.hasMirrored [.clock ⟨fieldAt 0 4 f.body, true⟩] t := by
  have hexec := times (mirroring_active hs) hrx hkind hroom
  have hcarried : timeCarried f.body = some (fieldAt 0 4 f.body) := by rw [timeCarried, readTime, if_pos hlen]
  rw [hcarried, takeDown_of_rx hrx, Option.elim_some] at hexec
  refine ⟨_, hexec, hasMirrored_finish ?_ hs⟩
  rw [adoptTime]
  rw [if_pos (Or.inr hlater)]
  exact wrote_first (e := { s with centre := { s.centre with rx := rest }, downQueue := s.downQueue ++ [f] }) hs rfl rfl

theorem clearRing_sweep (x : Feed) : x.clearRing.sweep = x.sweep := by
  unfold Feed.clearRing
  split <;> rfl

theorem mirrored_sweep (hs : s.mirroring) {f : Frame} {rest : List Frame} (hrx : s.station.rx = f :: rest)
    (hkind : f.kind = kindSweep) (hroom : s.upQueue.length < 256) (hlen : f.body.length = 5)
    (hn : fieldAt 0 1 f.body ≤ 63) (hx : (s.feedAt (fieldAt 0 1 f.body)).active = true)
    (hv : (s.feedAt (fieldAt 0 1 f.body)).sweep < s.clampTime (fieldAt 1 4 f.body)) :
    let x : Feed := ({ s.feedAt (fieldAt 0 1 f.body) with sweep := s.clampTime (fieldAt 1 4 f.body) } : Feed).clearRing
    let swept : State := { s with feeds := SMap.setD s.feeds {} (fieldAt 0 1 f.body) x }
    ∃ t, exec .sweep s = .next t ∧
      s.hasMirrored (.feed (fieldAt 0 1 f.body) x :: if swept.minima = s.horizon then [] else [.horizon swept.minima])
        t := by
  intro x swept
  have hexec := sweeps (mirroring_active hs) hrx hkind hroom
  rw [takeUp_of_rx f hrx, readSweep, if_pos hlen, Option.elim_some] at hexec
  set e : State := { s with station := { s.station with rx := rest }, upQueue := s.upQueue ++ [f] } with he
  refine ⟨_, hexec, hasMirrored_finish ?_ hs⟩
  rw [sweepEffect]
  rw [if_neg (Nat.not_lt.mpr hn), if_neg (show ¬(e.feedAt (fieldAt 0 1 f.body)).active = false from
    fun h => nomatch hx.symm.trans h), if_neg (show ¬e.clampTime (fieldAt 1 4 f.body) ≤
    (e.feedAt (fieldAt 0 1 f.body)).sweep from Nat.not_le.mpr hv)]
  have hchanged : x ≠ e.feedAt (fieldAt 0 1 f.body) := by
    intro hsame
    have hsweep : s.clampTime (fieldAt 1 4 f.body) = (s.feedAt (fieldAt 0 1 f.body)).sweep :=
      (clearRing_sweep _).symm.trans (congrArg Feed.sweep hsame)
    omega
  have hfeed := wrote_first (w := .feed (fieldAt 0 1 f.body) x) (e := e) (e' := e.setFeed (fieldAt 0 1 f.body) x) hs rfl
    (by rw [setFeed_mirror, if_neg hchanged])
  refine hfeed.noteIf hs (p := swept.minima = s.horizon) (w := .horizon swept.minima) (fun v hv' => ?_) rfl
  obtain rfl := List.mem_singleton.mp hv'
  show 257 + fieldAt 0 1 f.body ≠ 321
  omega

/-! ### An attributed record -/

theorem feedCheck_sound {r : CardRecord} {e : State} (hactive : (e.feedAt r.feed).active = true)
    (hlater : (e.feedAt r.feed).sweep < r.time) : feedCheck r e = e := by
  have hsound : ¬breaches (e.feedAt r.feed) r = true := fun h => by
    obtain ⟨-, hle⟩ := breaches_iff.mp h
    omega
  rw [feedCheck, hactive, if_neg (show ¬true = false from nofun), if_neg hsound]

theorem applyAttributed_quiet {n : Nat} {c : CaseRecord} {a : Attributed} {e : State} (hlate : a.lateRecord = false)
    (hblocked : a.blockedUse = false) (hheld : c.phase = .anchored → a.case.phase ≠ .held) :
    applyAttributed n c a e = e.setCase n a.case := by
  unfold applyAttributed
  rw [hlate, hblocked]
  exact if_neg fun h => hheld h.1 h.2

theorem mirrored_record (hs : s.mirroring) {f : Frame} {rest : List Frame} {r : CardRecord} {n : Nat} {c : CaseRecord}
    (hmode : s.mode = .attributing) (hrx : s.station.rx = f :: rest) (hkind : f.kind ∈ [kindUse, kindLoad, kindSale])
    (hroom : s.upQueue.length < 256) (hr : CardRecord.ofFrame f = some r) (hvalid : r.valid = true)
    (hlookup : lookup r.card s = some n) (hc : s.caseAt n = some c) (hactive : (s.feedAt r.feed).active = true)
    (hlater : (s.feedAt r.feed).sweep < r.time) :
    let a := measured s.policy.owned s.injector (s.feedAt r.feed) r c
    a.lateRecord = false → a.blockedUse = false → (c.phase = .anchored → a.case.phase ≠ .held) →
      ∃ t, exec .attributeRecord s = .next t ∧
        s.hasMirrored [.slot n { use := (s.slotAt n).use, case := some a.case }] t := by
  intro a hlate hblocked hheld
  have hexec := attributes (mirroring_active hs) hrx hkind hroom hmode
  rw [attributeFrame_matched hr hvalid hlookup hc, feedCheck_sound hactive hlater,
    applyAttributed_quiet hlate hblocked hheld] at hexec
  exact ⟨_, hexec, hasMirrored_finish (wrote_first (e := s) hs rfl rfl) hs⟩

/-! ### Commands -/

theorem mirrored_policy (hs : s.mirroring) {c : Control} {q : PolicyParams} (hin : s.inHand 0x20 c)
    (hread : readPolicy c.params = some q) (hbusy : s.cu.busy = none) :
    ∃ t, exec .setPolicy s = .next t ∧
      s.hasMirrored (if policyWith q s.policy = s.policy then [] else [.policy (policyWith q s.policy)]) t := by
  have hexec := executed_inHand (adm := .activeOnly) (busy := false) (own := setPolicyCommand) hin (by decide) rfl nofun
  rw [setPolicyCommand_of_read hread] at hexec
  have hwrote := (wrote_nil (e := s.taken) hs rfl).noteIf (ws := []) (w := .policy (policyWith q s.policy))
    (p := policyWith q s.policy = s.policy) (e' := s.taken.setPolicy (policyWith q s.policy)) hs
    (fun v hv => absurd hv List.not_mem_nil) rfl
  have hmirrored := hasMirrored_respond (e := s.taken.setPolicy (policyWith q s.policy)) hwrote hs hbusy c
    (.reply (.policy (policyWith q s.policy)))
  exact ⟨_, hexec, hmirrored⟩

/-- The entries of a PRODUCT DATA, each a write of its own (R144; log entry 8). -/
theorem wrote_entries (hs : s.mirroring) {e : State} (he : e.mirror = s.mirror) (rs : List RawProduct) (x : Session) :
    Wrote s (rs.mapIdx (fun i r => .product (x.codeAt i) (r.checked.getD {}))) (writeEntries rs x e).2 := by
  induction rs using List.reverseRecOn with
  | nil => exact wrote_nil hs he
  | append_singleton rest r ih =>
    rw [writeEntries_concat, writeEntries_session, List.mapIdx_concat]
    exact ih.note hs nofun rfl

/-- PRODUCT DATA in hand keeps its load session (R145). -/
theorem executed_productData {c : Control} (h : s.inHand codeProductData c) :
    exec .productData s = .next (finish (respond c (productData c { s.taken with cu := s.cu }))) := by
  obtain ⟨hcontrol, hfault, hcode, htarget, htakes, hactive⟩ := h
  have htaken : s.afterTaking codeProductData = { s.taken with cu := s.cu } := afterTaking_active hactive
  have hcommon : commonFault .activeOnly false c ({ s.taken with cu := s.cu } : State) = none := by
    rw [commonFault, if_neg (by omega), show State.isActive { s.taken with cu := s.cu } = true from hactive]
    rfl
  show runCommand codeProductData .activeOnly false productData s = _
  rw [runCommand_eq hcontrol hfault hcode htakes, htaken, executed, hcommon]

theorem mirrored_productData (hs : s.mirroring) {c : Control} {rs : List RawProduct} {x : Session}
    (hin : s.inHand 0x23 c) (hread : readProducts c.params = some rs) (hsession : s.cu.session = some x)
    (hbusy : s.cu.busy = none) :
    ∃ t, exec .productData s = .next t ∧
      s.hasMirrored (rs.mapIdx (fun i r => .product (x.codeAt i) (r.checked.getD {}))) t := by
  have hown := productData_with_session (s := { s.taken with cu := s.cu }) hread hsession
  have hexec := executed_productData hin
  rw [hown] at hexec
  have hwrote := wrote_entries (e := { s.taken with cu := s.cu }) hs rfl rs x
  have hmirrored := hasMirrored_respond
    (e := { (writeEntries rs x { s.taken with cu := s.cu }).2 with
      cu := { s.cu with session := some { x with pointer := x.codeAt rs.length } } })
    (hwrote.same rfl) hs hbusy c
    (.reply (.loaded rs.length (rs.countP (fun r => r.checked.isNone)) (x.codeAt rs.length)))
  exact ⟨_, hexec, hmirrored⟩

theorem mirrored_openCase (hs : s.mirroring) {c : Control} {p : OpenParams} {n : Nat} (hin : s.inHand 0x01 c)
    (hclock : s.clock.isSet = true) (hread : readOpen c.params = some p) (hvalid : p.valid = true)
    (hfuture : p.tr ≤ s.clock.time + s.policy.futureSlack) (hlookup : lookup p.card s = none)
    (hcounter : s.injector.counter < 4294967295) (halloc : allocate p.card s = some n) (hbusy : s.cu.busy = none) :
    ∃ t, exec .openCase s = .next t ∧
      s.hasMirrored
        [.slot n { use := (s.slotAt n).use, case := some (newCase p) }, .listOp (.append ⟨s.handleAt n, .add, false⟩)]
        t := by
  have hown : openCase c s.taken = accept (openAt n p s.taken) (.opened (s.handleAt n)) := by
    rw [openCase_of_valid hclock hread hvalid, if_neg (Nat.not_lt.mpr hfuture), if_neg (by simp [hlookup]),
      if_neg (Nat.not_le.mpr hcounter), halloc]
    rfl
  have hexec := executed_inHand (adm := .activeOnly) (busy := false) (own := openCase) hin (by decide) rfl nofun
  rw [hown] at hexec
  have hslot := wrote_first (e := s.taken) (w := .slot n { use := (s.slotAt n).use, case := some (newCase p) })
    (e' := s.taken.fillSlot n { s.slotAt n with case := some (newCase p) }) hs rfl rfl
  have hentry := hslot.note hs (w := .listOp (.append ⟨s.handleAt n, .add, false⟩)) (e' := openAt n p s.taken) nofun
    rfl
  have hmirrored := hasMirrored_respond (e := openAt n p s.taken) hentry hs hbusy c (.reply (.opened (s.handleAt n)))
  exact ⟨_, hexec, hmirrored⟩

/-! ### An injected REMOVE -/

theorem find?_eraseP_of_apart {α : Type} {p q : α → Bool} {xs : List α} (h : ∀ x, p x = true → q x = false) :
    (xs.eraseP q).find? p = xs.find? p := by
  induction xs with
  | nil => rfl
  | cons x rest ih =>
    cases hq : q x with
    | true =>
      have hp : p x = false := by
        cases hp : p x with
        | false => rfl
        | true => exact absurd (h x hp) (by rw [hq]; nofun)
      rw [List.eraseP_cons_of_pos hq, List.find?_cons_of_neg (by rw [hp]; nofun)]
    | false =>
      rw [List.eraseP_cons_of_neg (by rw [hq]; nofun), List.find?_cons, List.find?_cons, ih]

/-- The SETTLEMENT entry of a case is found as before once its OFFER entry has left the Emission List. -/
theorem emission_after_removal (a : Handle) (e : State) :
    (removeEmission a .offer e).emission a .settlement = e.emission a .settlement := by
  unfold removeEmission
  cases hoffer : e.emission a .offer with
  | none => rfl
  | some x =>
    have hx : x.handle = a ∧ x.kind = .offer := of_decide_eq_true
      (List.find?_some (p := fun e : EmitEntry => decide (e.handle = a ∧ e.kind = .offer)) hoffer)
    refine find?_eraseP_of_apart fun y hy => ?_
    have hy' : y.handle = a ∧ y.kind = .settlement := of_decide_eq_true hy
    refine decide_eq_false fun hboth => ?_
    exact nomatch hy'.2.symm.trans (hboth.2.trans hx.2)

/-- The writes of a freed slot, behind those of its event. -/
theorem Wrote.freeSlot {e : State} {ws : List TableWrite} (h : Wrote s ws e) (hs : s.mirroring) {n : Nat}
    (hnew : ∀ v ∈ ws, v.item ≠ 340 + n) :
    Wrote s
      (ws ++ [.slot n { use := (e.slotAt n).use + 1, case := none }] ++
        (e.emission (e.handleAt n) .offer).toList.map (fun x => .emitOp (.remove x)) ++
        (e.emission (e.handleAt n) .settlement).toList.map (fun x => .emitOp (.remove x)))
      (freeSlot n e) := by
  set x : Slot := { use := (e.slotAt n).use + 1, case := none } with hx
  have hslot := h.note hs (w := .slot n x) (e' := e.fillSlot n x) (fun _ => hnew) (fillSlot_mirror e n x)
  have hoffer := hslot.removeEmission hs (e.handleAt n) .offer
  have hsettled := hoffer.removeEmission hs (e.handleAt n) .settlement
  rw [emission_after_removal] at hsettled
  exact hsettled

theorem mirrored_remove (hs : s.mirroring) {d : Delta} (htx : s.station.tx = .delta d) (hkind : d.kind = .remove)
    (hlive : (s.named d.handle).isSome = true) :
    let i : Injector := ⟨some (s.injector.epoch.getD d.epoch), d.version⟩
    ∃ t, exec .removeInjected s = .next t ∧
      s.hasMirrored
        ((if i = s.injector then [] else [.list i]) ++
          [.listOp (.remove ⟨d.handle, .remove, false⟩),
            .slot d.handle.slot { use := (s.slotAt d.handle.slot).use + 1, case := none }] ++
          (s.emission d.handle .offer).toList.map (fun e => .emitOp (.remove e)) ++
          (s.emission d.handle .settlement).toList.map (fun e => .emitOp (.remove e))) t := by
  intro i
  refine ⟨_, exec_removeInjected htx hkind, hasMirrored_finish ?_ hs⟩
  obtain ⟨x, hx⟩ := Option.isSome_iff_exists.mp hlive
  have hslot : d.handle.slot < 2112 := named_slot_lt hx
  have huse : s.handleAt d.handle.slot = d.handle := by
    rw [State.named] at hx
    by_cases hcurrent : d.handle.slot < slotLimit ∧ (s.slotAt d.handle.slot).use = d.handle.use
    · show (⟨d.handle.slot, (s.slotAt d.handle.slot).use⟩ : Handle) = d.handle
      rw [hcurrent.2]
    · rw [if_neg hcurrent] at hx
      cases hx
  set e : State := { s with station := s.station.insertedDone }
  have hlist := (wrote_nil (e := e) hs rfl).noteIf (ws := []) (w := .list i) (p := i = s.injector)
    (e' := injectVersion d e) hs (fun v hv => absurd hv List.not_mem_nil) rfl
  have hentry := hlist.note hs (w := .listOp (.remove ⟨d.handle, .remove, false⟩))
    (e' := (injectVersion d e).doListOp (.remove ⟨d.handle, .remove, false⟩)) nofun rfl
  set e2 : State := (injectVersion d e).doListOp (.remove ⟨d.handle, .remove, false⟩)
  have hinject : injectRemove d s = freeSlot d.handle.slot e2 := by
    have hnamed : e2.named d.handle = some x := hx
    unfold injectRemove
    dsimp only
    rw [show ((injectVersion d { s with station := s.station.insertedDone }).doListOp
      (.remove ⟨d.handle, .remove, false⟩)).named d.handle = some x from hnamed]
  have hfreed := hentry.freeSlot hs (n := d.handle.slot) fun v hv => by
    rcases List.mem_append.mp hv with hv | hv
    · by_cases hsame : i = s.injector
      · rw [if_pos hsame] at hv
        exact absurd hv List.not_mem_nil
      · rw [if_neg hsame] at hv
        obtain rfl := List.mem_singleton.mp hv
        show 322 ≠ 340 + d.handle.slot
        omega
    · obtain rfl := List.mem_singleton.mp hv
      show 2452 ≠ 340 + d.handle.slot
      omega
  rw [hinject]
  rw [show e2.handleAt d.handle.slot = d.handle from huse] at hfreed
  have horder : ∀ (a b : TableWrite) (l m o : List TableWrite), l ++ [a, b] ++ m ++ o = l ++ [a] ++ [b] ++ m ++ o := by
    intro a b l m o
    simp only [List.append_assoc, List.cons_append, List.nil_append]
  rw [horder]
  exact hfreed

end

/-! ### A message sent by a STANDBY -/

theorem next_messageSent_active {m : PairTx} {s : State} (htx : s.mirror.tx = some m) (hend : m.isCopyEnd = false)
    (hactive : s.isActive = true) :
    exec .pairMessageSent s =
      .next (finish (match m with
        | .queued _ => s.queuedSent
        | _ => s.messageDone)) := by
  rw [exec_pairMessageSent htx hend]
  cases m with
  | relay a held => rw [messageSent_relay, hactive, Bool.not_true, Bool.and_false, if_neg Bool.false_ne_true]
  | queued q => rfl
  | stop => rfl
  | yieldRequest => rfl
  | presence => rfl

/-- Settles O52: the group of an event, each message sent, each step of the copy, and the writes of nine events. -/
theorem groupsAndCopySteps : Obligations.GroupsAndCopySteps := by
  unfold Obligations.GroupsAndCopySteps
  refine ⟨fun s => ?_, fun m s htx hend hactive => ?_, fun m s htx hend hstandby hwrites => ?_,
    fun m s htx hend hcopy => ?_, fun m k b s htx hend hcopy hended hactive hb hbusy => ?_,
    fun k s hpair hactive hcopy hended hbegun => ?_, fun k s hpair hactive hcopy hended hbegun => ?_, fun s hs => ?_⟩
  · intro ps
    exact ⟨fun hroom => closeGroup_room hroom, fun h hover hbusy hcopy => closeGroup_overflowed h hover hbusy hcopy⟩
  · refine ⟨_, next_messageSent_active htx hend hactive, ?_⟩
    cases m <;> exact ended_finish (noted_refl _)
  · intro sent
    have hexec := exec_pairMessageSent htx hend
    refine ⟨fun hquiet => ?_, fun a x rest hm hl hlen hw => ?_⟩
    · cases m with
      | relay a held =>
        rw [messageSent_relay, hstandby, Bool.not_false, Bool.and_true] at hexec
        cases held with
        | true =>
          have hw : s.relaySent.cu.waiting = [] := hquiet.resolve_right fun h => h a rfl
          rw [if_pos rfl, flushAnswers_of_none hw] at hexec
          exact hexec.trans (congrArg _ (finish_of_no_writes hwrites))
        | false => exact hexec.trans (congrArg _ (finish_of_no_writes hwrites))
      | queued q => exact hexec.trans (congrArg _ (finish_of_no_writes hwrites))
      | stop => exact hexec.trans (congrArg _ (finish_of_no_writes hwrites))
      | yieldRequest => exact hexec.trans (congrArg _ (finish_of_no_writes hwrites))
      | presence => exact hexec.trans (congrArg _ (finish_of_no_writes hwrites))
    · subst hm
      intro e
      rw [messageSent_relay, hstandby, Bool.not_false, Bool.and_true, if_pos rfl] at hexec
      have hleft {t : State} (ht : answerPlaced x (s.relayTaken x rest) = t)
          (hlist : t.mirror.relayList = s.mirror.relayList.tail ++ [x]) (hup : t.mirror.linkUp = true)
          (hrole : t.isActive = false) (hwr : t.mirror.writes = []) : exec .pairMessageSent s = .next t.begun := by
        rw [hexec, flush_relaySent hstandby hl hlen hw ht hlist hup hrole, finish_of_no_writes hwr]
      refine ⟨fun hbusy => ?_, fun r b hx hb hbegun hended => ?_⟩
      · cases x with
        | completion r => exact hleft rfl rfl hl hstandby hwrites
        | summary r => exact hleft rfl rfl hl hstandby hwrites
        | response r =>
          exact hleft (answerPlaced_response r (s := s.relayTaken (.response r) rest) hbusy) rfl hl hstandby hwrites
      · subst hx
        have hbegins : answerPlaced (.response r) (s.relayTaken (.response r) rest) =
            beginWork b (s.relayTaken (.response r) rest) := answerPlaced_begins hb hbegun hended
        exact ⟨fun hwork => hleft (hbegins.trans (beginWork_takeover hwork hstandby)) rfl hl hstandby hwrites,
          fun noted hwork => hleft (hbegins.trans (beginWork_forced hwork hstandby)) rfl hl hstandby hwrites⟩
  · refine ⟨_, exec_copyEndSent htx hend, ?_⟩
    rw [messageSent_copyEnd hend, copyDone_idle (s := s.queuedSent) hcopy]
    exact ended_finish (noted_refl _)
  · refine ⟨_, exec_copyEndSent htx hend, ?_⟩
    rw [messageSent_copyEnd hend]
    exact finish_copyDone (s := s.queuedSent) hcopy hended hactive hb hbusy
  · intro steps
    have hsteps : nextSteps k s = steps := nextSteps_begun hbegun s
    have hexec := exec_copyItemPlaced hpair hactive hcopy hended
    rw [hsteps] at hexec
    refine ⟨fun hfull => hexec.trans (event_idle (decide_eq_false (by omega))),
      fun hroom => ⟨_, hexec.trans (event_next (decide_eq_true hroom)), ?_⟩⟩
    rw [placeStep_eq, hsteps, advance_begun hbegun, hbegun, if_pos rfl]
    exact ended_finish (noted_refl _)
  · have hsteps := nextSteps_waiting hbegun s
    have hexec := exec_copyItemPlaced hpair hactive hcopy hended
    rw [hsteps, List.length_singleton] at hexec
    refine ⟨fun hfull => hexec.trans (event_idle (decide_eq_false (by omega))),
      fun hroom => ⟨_, hexec.trans (event_next (decide_eq_true (by omega))), ?_⟩⟩
    rw [placeStep_eq, hsteps, advance_waiting hbegun, hbegun, if_neg Bool.false_ne_true, withGroup_cons, withGroup_nil]
    exact ended_finish (noted_refl _)
  · obtain ⟨hpair, -⟩ := id hs
    exact ⟨fun p again c hwalk hc hphase hfinal => mirrored_settlement hs hwalk hc hphase hfinal,
      fun f rest hrx hkind hroom hlen hlater => mirrored_time hs hrx hkind hroom hlen hlater,
      fun f rest hrx hkind hroom hlen hn hx hv => mirrored_sweep hs hrx hkind hroom hlen hn hx hv,
      fun f rest r n c hmode hrx hkind hroom hr hvalid hlookup hc hx hlater =>
        mirrored_record hs hmode hrx hkind hroom hr hvalid hlookup hc hx hlater,
      fun c q hin hread hbusy => mirrored_policy hs hin hread hbusy,
      fun c rs x hin hread hsession hbusy => mirrored_productData hs hin hread hsession hbusy,
      fun c p n hin hclock hread hvalid hfuture hlookup hcounter halloc hbusy =>
        mirrored_openCase hs hin hclock hread hvalid hfuture hlookup hcounter halloc hbusy,
      fun d htx hkind hlive => mirrored_remove hs htx hkind hlive,
      fun n h => ⟨_, exec_forceGlitch hpair h,
        hasMirrored_finish ((wrote_nil hs rfl).countNotice hs rfl fun v hv => absurd hv List.not_mem_nil) hs⟩⟩

end Sys2Proof.Machine

/-! Paired engines: an engine becomes ACTIVE (10_paired_engines.md, 10.1, 10.6 and 10.7). -/

namespace Sys2Proof.Machine

/-! ### What waits for the Pair Link's transmitter -/

/-- The MIRROR STOP and the relays that wait for the Pair Link's transmitter. -/
def MirrorUnit.outbox (m : MirrorUnit) : Bool × List Answer := (m.stopDue, m.relayList)

theorem countNotice_outbox (c : NoticeClass) (sub : Subject) (s : State) :
    (countNotice c sub s).mirror.outbox = s.mirror.outbox := by
  rw [countNotice, setNotice_mirror]
  split
  · rfl
  · exact congrArg₂ Prod.mk (note_stopDue _ _) (note_relayList _ _)

theorem formCompletion_outbox (ok : Bool) (n : Nat) (d : Option Detail) (s : State) :
    (formCompletion ok n d s).mirror.outbox = s.mirror.outbox := by
  unfold formCompletion countIf
  split
  · exact countNotice_outbox _ _ { s with cu := s.cu.complete s.mirror.straps.member ok n d }
  · rfl

theorem copyBegin_outbox (m : MirrorUnit) : m.copyBegin.outbox = m.outbox := by
  rw [copyBegin_eq]
  split <;> rfl

theorem beginWork_outbox (b : Busy) (s : State) : (beginWork b s).mirror.outbox = s.mirror.outbox := by
  unfold beginWork
  dsimp only
  split
  · rfl
  · split
    · exact copyBegin_outbox _
    · exact formCompletion_outbox _ _ _ _
  · rfl
  · dsimp only
    split <;> rfl

theorem answerPlaced_outbox (a : Answer) (s : State) : (answerPlaced a s).mirror.outbox = s.mirror.outbox := by
  unfold answerPlaced
  split
  · rfl
  · split
    · split
      · rfl
      · exact beginWork_outbox _ _
    · rfl
  · rfl

theorem placed_mirror_active (a : Answer) {s : State} (h : s.isActive = true) : (s.placed a).mirror = s.mirror := by
  rw [placed_active a h]

/-- An ACTIVE engine's answers go to its Insert Queue. -/
theorem placeAnswers_outbox (k : Nat) {s : State} (hactive : s.isActive = true) :
    (placeAnswers k s).mirror.outbox = s.mirror.outbox := by
  induction k generalizing s with
  | zero => rfl
  | succ k ih =>
    rw [placeAnswers]
    split
    · have hrole := (kept_placeAnswer s).role.trans (role_of_active hactive)
      rw [ih (by rw [State.isActive, hrole]; rfl)]
      cases hw : s.cu.waiting with
      | nil => simp only [placeAnswer, hw]
      | cons a rest =>
        rw [placeAnswer_of_waiting hw, answerPlaced_outbox]
        exact congrArg MirrorUnit.outbox
          (placed_mirror_active a (s := { s with cu := { s.cu with waiting := rest } }) hactive)
    · rfl

/-- Mirroring that stops on an ACTIVE engine keeps its relay list, and what MIRROR STOP waits. -/
theorem stopMirroring_outbox (why : Detail) (report : Bool) {s : State} (hactive : s.isActive = true) :
    (stopMirroring why report s).mirror.outbox = (s.mirror.stopped report).outbox := by
  have hcounted := countNotice_outbox .mirrorStale (.line .pair) { s with mirror := s.mirror.stopped report }
  have hrole := (kept_countNotice .mirrorStale (.line .pair) { s with mirror := s.mirror.stopped report }).role
  have hactive' : ∀ t : State, t.mirror.role = s.mirror.role → t.isActive = true := by
    intro t ht
    rw [State.isActive, ht]
    exact hactive
  unfold stopMirroring
  dsimp only
  split
  · exact (placeAnswers_outbox _ (hactive' _ ((kept_formCompletion _ _ _ _).role.trans hrole))).trans
      ((formCompletion_outbox _ _ _ _).trans hcounted)
  · exact (placeAnswers_outbox _ (hactive' _ hrole)).trans hcounted

/-- Mirroring that stops leaves the view STALE, whatever a busy command begins. -/
theorem stopMirroring_currency (why : Detail) (report : Bool) (s : State) :
    (stopMirroring why report s).mirror.currency = .stale := by
  unfold stopMirroring
  dsimp only
  refine placeAnswers_currency _ _ ?_
  split
  · exact (formCompletion_currency _ _ _ _).trans (countNotice_currency _ _ _)
  · exact countNotice_currency _ _ _

/-- The group of an event reaches the Mirror Queue, or mirroring stops. -/
theorem closeGroup_outbox {s : State} (hactive : s.isActive = true) :
    (closeGroup s).mirror.relayList = s.mirror.relayList ∧
      (s.mirror.stopDue = true → (closeGroup s).mirror.stopDue = true) := by
  rcases placeGroup_cases s.groupOf { s with mirror := { s.mirror with writes := [] } } with ⟨q, n, h⟩ | ⟨q, n, h⟩
  · have hclosed : closeGroup s = _ := h
    rw [hclosed]
    exact ⟨rfl, id⟩
  · have hclosed : closeGroup s = _ := h
    have houtbox := stopMirroring_outbox .overflow true
      (s := { s with mirror := { s.mirror with writes := [], queue := s.mirror.queue ++ q, next := n } }) hactive
    rw [hclosed]
    refine ⟨congrArg Prod.snd houtbox, fun hdue => (congrArg Prod.fst houtbox).trans ?_⟩
    show (s.mirror.stopDue || _) = true
    rw [hdue, Bool.true_or]

/-- A MIRROR STOP that is due goes on waiting, or begins. -/
theorem pump_stopDue {m : MirrorUnit} (h : m.stopDue = true) : m.pump.stopDue = true ∨ m.pump.tx = some .stop := by
  unfold MirrorUnit.pump
  by_cases hfree : (m.straps.pair && m.tx.isNone) = true
  · rw [if_pos hfree, if_pos h]
    exact Or.inr rfl
  · rw [if_neg hfree]
    exact Or.inl h

/-! ### The tables of an engine that becomes ACTIVE (R94) -/

/-- A slot whose case has lost its removal version. -/
def State.unremoved (s : State) (n : Nat) : Slot :=
  { use := (s.slotAt n).use, case := (s.caseAt n).map (fun c => { c with removalVersion := none }) }

theorem slotAt_dropRemovals_keys {xs : List (Nat × CaseRecord)} {s : State}
    (hkeys : xs.Pairwise (fun a b => a.1 ≠ b.1)) (hcases : ∀ p ∈ xs, s.caseAt p.1 = some p.2) (n : Nat) :
    (dropRemovals xs s).slotAt n = if n ∈ xs.map Prod.fst then s.unremoved n else s.slotAt n := by
  induction xs generalizing s with
  | nil => rfl
  | cons x rest ih =>
    obtain ⟨hx, hrest⟩ := List.pairwise_cons.mp hkeys
    set t : State := s.setCase x.1 { x.2 with removalVersion := none } with ht
    have hcases' : ∀ p ∈ rest, t.caseAt p.1 = some p.2 := fun p hp => by
      rw [ht, caseAt_setCase, if_neg (hx p hp).symm]
      exact hcases p (List.mem_cons_of_mem _ hp)
    have hslot : ∀ m, t.slotAt m = if m = x.1 then s.unremoved m else s.slotAt m := by
      intro m
      rw [ht, State.setCase, slotAt_setSlot]
      by_cases hm : m = x.1
      · rw [if_pos hm, if_pos hm, hm, State.unremoved, hcases x List.mem_cons_self]
        rfl
      · rw [if_neg hm, if_neg hm]
    show (dropRemovals rest t).slotAt n = _
    rw [ih hrest hcases', List.map_cons]
    by_cases hn : n = x.1
    · have hnot : n ∉ rest.map Prod.fst := by
        intro hmem
        obtain ⟨p, hp, hpn⟩ := List.mem_map.mp hmem
        exact hx p hp (hn.symm.trans hpn.symm)
      rw [if_neg hnot, hslot, if_pos hn, if_pos (hn ▸ List.mem_cons_self)]
    · have hiff : n ∈ x.1 :: rest.map Prod.fst ↔ n ∈ rest.map Prod.fst := by
        rw [List.mem_cons, or_iff_right hn]
      have hsame : t.unremoved n = s.unremoved n := by
        rw [State.unremoved, State.unremoved, State.caseAt, State.caseAt, hslot, if_neg hn]
      rw [hslot, if_neg hn, hsame]
      exact if_congr hiff.symm rfl rfl

/-- No case has a removal version after the removals have been dropped. -/
theorem slotAt_dropRemovals {s : State} (hs : SMap.sorted s.slots) (n : Nat) :
    (dropRemovals s.removals s).slotAt n = s.unremoved n := by
  rw [slotAt_dropRemovals_keys (removals_keys hs) (fun p hp => removals_cases hs hp)]
  by_cases hn : n ∈ s.removals.map Prod.fst
  · rw [if_pos hn]
  · rw [if_neg hn, State.unremoved]
    cases hc : s.caseAt n with
    | none => rw [Option.map_none, ← hc]; rfl
    | some c =>
      have hrv : c.removalVersion = none := by
        by_contra hne
        refine hn (List.mem_map.mpr ⟨(n, c), ?_, rfl⟩)
        obtain ⟨x, hx, hcx⟩ : ∃ x, SMap.look s.slots n = some x ∧ x.case = some c := by
          unfold State.caseAt State.slotAt SMap.getD at hc
          cases hlook : SMap.look s.slots n with
          | none => rw [hlook] at hc; cases hc
          | some x => exact ⟨x, rfl, by rw [hlook] at hc; exact hc⟩
        refine List.mem_filterMap.mpr ⟨(n, x), mem_of_look hx, ?_⟩
        rw [hcx, Option.bind_some, if_pos (Option.isSome_iff_ne_none.mpr hne)]
      have hsame : ({ c with removalVersion := none } : CaseRecord) = c := by rw [← hrv]
      rw [Option.map_some, hsame, ← hc]
      rfl

/-- The List Queue of an engine that becomes ACTIVE: a cancelled ADD at its head is a REMOVE (R94). -/
def uncancelled (q : List ListEntry) : List ListEntry :=
  match q with
  | e :: _ =>
    if e.kind = .add ∧ e.cancelled then q.map (fun x => if x.handle = e.handle then ⟨e.handle, .remove, false⟩ else x)
    else q
  | [] => []

theorem noted_dropCancelled (s : State) : Noted { s with listQueue := uncancelled s.listQueue } (dropCancelled s) := by
  cases hq : s.listQueue with
  | nil =>
    have hdrop : dropCancelled s = s := by simp only [dropCancelled, hq]
    rw [hdrop, show uncancelled [] = [] from rfl, ← hq]
    exact noted_refl s
  | cons e rest =>
    have hlist : uncancelled (e :: rest) = if e.kind = .add ∧ e.cancelled then
        (ListOp.replace ⟨e.handle, .remove, false⟩).apply (e :: rest) else e :: rest := rfl
    by_cases hcancel : e.kind = .add ∧ e.cancelled = true
    · have hdrop : dropCancelled s = s.doListOp (.replace ⟨e.handle, .remove, false⟩) := by
        simp only [dropCancelled, hq, if_pos hcancel]
      rw [hdrop, hlist, if_pos hcancel, ← hq]
      exact noted_doListOp (noted_refl s) _
    · have hdrop : dropCancelled s = s := by simp only [dropCancelled, hq, if_neg hcancel]
      rw [hdrop, hlist, if_neg hcancel, ← hq]
      exact noted_refl s

/-! ### The claim's course (R163) -/

/-- The engine has taken the ACTIVE role, before it changes its tables. -/
def State.claimed (cause : ClaimCause) (s : State) : State :=
  { s with
    mirror := s.mirror.becomeActive cause
    station := s.station.becomeActive
    centre := s.centre.becomeActive
    cu := { s.cu with session := none } }

/-- What the ACTIVE engine does to its tables, its notices and its walk. -/
def State.settledIn (s : State) : State :=
  trigger (countRoleChange (dropRemovals s.removals (dropCancelled s)))

theorem becomeActive_eq (cause : ClaimCause) (s : State) :
    becomeActive cause s = flushAnswers (completeTakeover (s.claimed cause).settledIn) := rfl

theorem exec_claimComplete {cause : ClaimCause} {s : State} (h : s.mirror.stage = .claiming cause) :
    exec .claimComplete s = .next (finish (becomeActive cause s)) := by
  simp only [exec, execClaimComplete, h]
  exact event_next rfl

theorem noted_trigger {a b : State} (h : Noted a b) : Noted { a with walk := a.triggered } (trigger b) := by
  have htrigger := noted_triggerIf h true
  rw [triggerIf_true] at htrigger
  exact htrigger

/-- The same, but for the writes that it notes. -/
def State.settledTables (s : State) : State :=
  { s with
    listQueue := uncancelled s.listQueue
    slots := s.settledIn.slots
    notices := s.notices.counted .roleChange (.line .hold)
    walk := s.triggered }

theorem noted_settledIn (s : State) : Noted s.settledTables s.settledIn :=
  noted_trigger (noted_countNotice (noted_dropRemovals (noted_dropCancelled s) s.removals) .roleChange (.line .hold))

theorem settledIn_slots (s : State) : s.settledIn.slots = (dropRemovals s.removals (dropCancelled s)).slots := rfl

theorem slotAt_settledIn {s : State} (hs : SMap.sorted s.slots) (n : Nat) :
    s.settledTables.slotAt n = s.unremoved n := by
  have hslots := dropCancelled_slots s
  have hdropped := slotAt_dropRemovals (s := dropCancelled s) (by rw [hslots]; exact hs) n
  rw [removals_congr hslots] at hdropped
  have hsame : (dropCancelled s).unremoved n = s.unremoved n := by
    simp only [State.unremoved, State.caseAt, State.slotAt, hslots]
  rw [← hsame, ← hdropped]
  show SMap.getD s.settledIn.slots {} n = _
  rw [settledIn_slots]
  rfl

theorem kept_completeTakeover (s : State) : Kept s (completeTakeover s) := by
  unfold completeTakeover
  split
  · split
    · exact kept_formCompletion _ _ _ s
    · exact kept_formCompletion _ _ _ s
    · exact kept_refl s
  · exact kept_refl s

theorem completeTakeover_mirror (s : State) : (completeTakeover s).mirror = s.mirror := by
  unfold completeTakeover
  split
  · split <;> rfl
  · rfl

theorem completeTakeover_notices (s : State) : (completeTakeover s).notices = s.notices := by
  unfold completeTakeover
  split
  · split <;> rfl
  · rfl

theorem completeTakeover_all {s : State} (h : s.cu.busy.all (fun b => b.begun || b.ended) = true) :
    (completeTakeover s).cu.busy.all (fun b => b.begun || b.ended) = true := by
  unfold completeTakeover
  split
  · split
    · exact formCompletion_ended _ _ _ s
    · exact formCompletion_ended _ _ _ s
    · exact h
  · exact h

end Sys2Proof.Machine

namespace Sys2Proof.Machine

/-! ### What becoming ACTIVE leaves -/

section
variable {cause : ClaimCause} {s : State}

theorem claimed_active (cause : ClaimCause) (s : State) : (s.claimed cause).isActive = true := rfl

theorem settledIn_mirror (s : State) : s.settledIn.mirror = { s.mirror with writes := s.settledIn.mirror.writes } :=
  congrArg State.mirror (noted_settledIn s).1

theorem kept_becomeActive (cause : ClaimCause) (s : State) :
    Kept (s.claimed cause).settledIn (becomeActive cause s) :=
  kept_trans (kept_completeTakeover _) (kept_flushAnswers _)

theorem settledIn_role (cause : ClaimCause) (s : State) : (s.claimed cause).settledIn.mirror.role = .active := by
  rw [settledIn_mirror]
  rfl

theorem becomeActive_role (cause : ClaimCause) (s : State) : (becomeActive cause s).mirror.role = .active :=
  (kept_becomeActive cause s).role.trans (settledIn_role cause s)

theorem becomeActive_pairing (cause : ClaimCause) (s : State) :
    (becomeActive cause s).mirror.pairing = (s.mirror.becomeActive cause).pairing := by
  rw [(kept_becomeActive cause s).pairing (settledIn_role cause s), settledIn_mirror]
  rfl

/-- The tables, the path and the ports are those of the claim's own effect. -/
theorem finish_becomeActive (cause : ClaimCause) (s : State) :
    (finish (becomeActive cause s)).tables = (s.claimed cause).settledTables.tables ∧
    (finish (becomeActive cause s)).road = (s.claimed cause).settledTables.road ∧
    (finish (becomeActive cause s)).station = s.station.becomeActive.startCredit true ∧
    (finish (becomeActive cause s)).centre = s.centre.becomeActive.startCredit true ∧
    (finish (becomeActive cause s)).mirror.pairing = (s.mirror.becomeActive cause).pairing ∧
    (finish (becomeActive cause s)).cu.session = none := by
  have hkept := kept_becomeActive cause s
  have hnoted := (noted_settledIn (s.claimed cause)).1
  have hrole := becomeActive_role cause s
  have hactive : (becomeActive cause s).isActive = true := by rw [State.isActive, hrole]; rfl
  refine ⟨?_, ?_, ?_, ?_, (finish_pairing hrole).trans (becomeActive_pairing cause s), ?_⟩
  · rw [finish_tables, hkept.tables, hnoted]
    rfl
  · rw [finish_road, hkept.road, hnoted]
    rfl
  · rw [finish_station, hkept.station, hactive, hnoted]
    rfl
  · rw [finish_centre, hkept.centre, hactive, hnoted]
    rfl
  · rw [finish_session, hkept.session, hnoted]
    rfl

/-- A takeover of this engine ends in SUCCESS with the detail of its kind (R173, R174). -/
theorem completeTakeover_answers {b : Busy} {d : Detail} (hb : s.cu.busy = some b) (hended : b.ended = false)
    (hd : (∃ handed, b.work = .takeover handed ∧ d = s.mirror.currency.detail) ∨
      ∃ noted, b.work = .forcedTakeover noted ∧ d = noted.detail) :
    (completeTakeover s).holdsAnswer
      (.completion ⟨b.tag, b.work.code, s.mirror.straps.member, true, 0, some d⟩) := by
  have hformed : completeTakeover s = formCompletion true 0 (some d) s := by
    rcases hd with ⟨handed, hwork, rfl⟩ | ⟨noted, hwork, rfl⟩ <;>
      simp only [completeTakeover, running_of_busy hb hended, hwork]
  rw [hformed, formCompletion_success hb hended]
  exact Or.inr (List.mem_append_right _ (List.mem_singleton_self _))

theorem finish_becomeActive_answers {b : Busy} {d : Detail} (hb : s.cu.busy = some b) (hended : b.ended = false)
    (hd : (∃ handed, b.work = .takeover handed ∧ d = (viewAfter cause).detail) ∨
      ∃ noted, b.work = .forcedTakeover noted ∧ d = noted.detail) :
    (finish (becomeActive cause s)).holdsAnswer
      (.completion ⟨b.tag, b.work.code, s.mirror.straps.member, true, 0, some d⟩) := by
  have hmirror := settledIn_mirror (s.claimed cause)
  have hcu : (s.claimed cause).settledIn.cu = { s.cu with session := none } := by
    rw [(noted_settledIn (s.claimed cause)).1]
    rfl
  have hcurrency : (s.claimed cause).settledIn.mirror.currency = viewAfter cause := by
    rw [hmirror]
    rfl
  have hstraps : (s.claimed cause).settledIn.mirror.straps = s.mirror.straps := by
    rw [hmirror]
    rfl
  have hformed := completeTakeover_answers (s := (s.claimed cause).settledIn) (b := b) (d := d) (by rw [hcu]; exact hb)
    hended (by rw [hcurrency]; exact hd)
  rw [hstraps] at hformed
  refine finish_answers (becomeActive_role cause s) ((kept_flushAnswers _).answers ?_ _ hformed)
  exact (kept_completeTakeover _).role.trans (settledIn_role cause s)

/-- With no busy command about to begin, an engine that becomes ACTIVE places its answers alone. -/
theorem becomeActive_mirror (hbusy : s.cu.busy.all (fun b => b.begun || b.ended) = true) :
    (becomeActive cause s).mirror = (s.claimed cause).settledIn.mirror ∧
      (becomeActive cause s).notices = s.notices.counted .roleChange (.line .hold) ∧
      (becomeActive cause s).cu.busy.all (fun b => b.begun || b.ended) = true := by
  have hall : (completeTakeover (s.claimed cause).settledIn).cu.busy.all (fun b => b.begun || b.ended) = true := by
    refine completeTakeover_all ?_
    rw [(noted_settledIn (s.claimed cause)).1]
    exact hbusy
  have hactive : (completeTakeover (s.claimed cause).settledIn).isActive = true := by
    rw [State.isActive, completeTakeover_mirror, settledIn_role]
    rfl
  obtain ⟨-, -, -, hended, hnotices⟩ :=
    placeAnswers_of_ended ((completeTakeover (s.claimed cause).settledIn).cu.waiting.length + 2) hall
  refine ⟨(flushAnswers_mirror_active hactive hall).trans (completeTakeover_mirror _), ?_, hended⟩
  refine hnotices.trans ((completeTakeover_notices _).trans ?_)
  rw [(noted_settledIn (s.claimed cause)).1]
  rfl

/-- A view that is STALE after a HANDOVER sends a MIRROR STOP. -/
theorem finish_becomeActive_stop (s : State) :
    (finish (becomeActive (.handover .stale) s)).mirror.stopDue = true ∨
      (finish (becomeActive (.handover .stale) s)).mirror.tx = some .stop := by
  have hrole := becomeActive_role (.handover .stale) s
  have hactive : (becomeActive (.handover .stale) s).isActive = true := by rw [State.isActive, hrole]; rfl
  have hcompleted : (completeTakeover (s.claimed (.handover .stale)).settledIn).isActive = true := by
    rw [State.isActive, completeTakeover_mirror, settledIn_role]
    rfl
  have houtbox : (becomeActive (.handover .stale) s).mirror.outbox =
      (s.mirror.becomeActive (.handover .stale)).outbox := by
    refine (placeAnswers_outbox _ hcompleted).trans ?_
    rw [completeTakeover_mirror, settledIn_mirror]
    rfl
  have hdue : (becomeActive (.handover .stale) s).mirror.stopDue = true :=
    (congrArg Prod.fst houtbox).trans (Bool.or_true _)
  exact pump_stopDue ((closeGroup_outbox hactive).2 hdue)

/-! ### An engine that mirrors nothing -/

theorem finish_becomeActive_calm (hwrites : s.mirror.writes = []) (hview : viewAfter cause = .stale)
    (hcopy : s.mirror.copy = none) (hbusy : s.cu.busy.all (fun b => b.begun || b.ended) = true) :
    (finish (becomeActive cause s)).mirror = (s.mirror.becomeActive cause).pump ∧
      (finish (becomeActive cause s)).notices = s.notices.counted .roleChange (.line .hold) := by
  obtain ⟨hmirror, hnotices, -⟩ := becomeActive_mirror (cause := cause) hbusy
  have hcalm : (s.claimed cause).settledTables.calm = true :=
    calm_live.mpr ⟨hwrites, by
      show (_ && _ && (viewAfter cause == .current || s.mirror.copy.isSome)) = false
      rw [hview, hcopy]
      exact Bool.and_false _⟩
  have heffect : (s.claimed cause).settledIn = (s.claimed cause).settledTables := noted_eq (noted_settledIn _) hcalm
  rw [heffect] at hmirror
  rw [finish_of_no_writes (by rw [hmirror]; exact hwrites)]
  exact ⟨congrArg MirrorUnit.pump hmirror, hnotices⟩

end

/-! ### The writes of becoming ACTIVE (R94; log entry 8) -/

/-- A case's write without its removal version. -/
def State.removalWrite (s : State) (p : Nat × CaseRecord) : TableWrite :=
  .slot p.1 { s.slotAt p.1 with case := some { p.2 with removalVersion := none } }

theorem wrote_dropRemovals {s e : State} {ws : List TableWrite} {xs : List (Nat × CaseRecord)} (hs : s.mirroring)
    (h : Wrote s ws e) (hkeys : xs.Pairwise (fun a b => a.1 ≠ b.1))
    (hnew : ∀ p ∈ xs, ∀ v ∈ ws, v.item ≠ 340 + p.1) :
    Wrote s (ws ++ xs.map e.removalWrite) (dropRemovals xs e) := by
  induction xs generalizing e ws with
  | nil =>
    rw [List.map_nil, List.append_nil]
    exact h
  | cons x rest ih =>
    obtain ⟨hx, hrest⟩ := List.pairwise_cons.mp hkeys
    have hwritten := h.note hs (w := e.removalWrite x) (e' := e.setCase x.1 { x.2 with removalVersion := none })
      (fun _ => hnew x List.mem_cons_self) rfl
    have hleft := ih hwritten hrest fun p hp v hv => by
      rcases List.mem_append.mp hv with hv | hv
      · exact hnew p (List.mem_cons_of_mem _ hp) v hv
      · obtain rfl := List.mem_singleton.mp hv
        show 340 + x.1 ≠ 340 + p.1
        have := hx p hp
        omega
    have hsame : rest.map (e.setCase x.1 { x.2 with removalVersion := none }).removalWrite = rest.map e.removalWrite := by
      refine List.map_congr_left fun p hp => ?_
      simp only [State.removalWrite, State.setCase, slotAt_setSlot, if_neg (hx p hp).symm]
    rw [hsame, List.append_assoc, List.singleton_append, ← List.map_cons] at hleft
    exact hleft

/-- The removal versions dropped, as writes in the order of the slots. -/
theorem removals_writes {s : State} (hs : SMap.sorted s.slots) :
    s.removals.map s.removalWrite =
      s.slots.filterMap (fun e =>
        (e.2.case.filter (fun c => c.removalVersion.isSome)).map
          (fun c => .slot e.1 { e.2 with case := some { c with removalVersion := none } })) := by
  rw [State.removals, List.map_filterMap]
  refine List.filterMap_congr fun e he => ?_
  have hslot : s.slotAt e.1 = e.2 := by rw [State.slotAt, SMap.getD, look_of_mem hs he]; rfl
  cases hc : e.2.case with
  | none => rfl
  | some c =>
    rw [Option.bind_some, Option.filter_some]
    by_cases hrv : c.removalVersion.isSome = true
    · rw [if_pos hrv, if_pos hrv, Option.map_some, Option.map_some, State.removalWrite, hslot]
    · rw [if_neg hrv, if_neg hrv]
      rfl

/-- The write of a cancelled ADD at the head of the List Queue. -/
def cancelWrites (q : List ListEntry) : List TableWrite :=
  ((q.take 1).filter (fun e => decide (e.kind = .add ∧ e.cancelled = true))).map
    (fun e => .listOp (.replace ⟨e.handle, .remove, false⟩))

theorem cancelWrites_item {q : List ListEntry} {v : TableWrite} (h : v ∈ cancelWrites q) : v.item = 2452 := by
  obtain ⟨e, -, rfl⟩ := List.mem_map.mp h
  rfl

theorem wrote_dropCancelled {s e : State} (hs : s.mirroring) (h : Wrote s [] e) :
    Wrote s (cancelWrites e.listQueue) (dropCancelled e) := by
  cases hq : e.listQueue with
  | nil =>
    have hdrop : dropCancelled e = e := by simp only [dropCancelled, hq]
    rw [hdrop]
    exact h
  | cons x rest =>
    by_cases hcancel : x.kind = .add ∧ x.cancelled = true
    · have hdrop : dropCancelled e = e.doListOp (.replace ⟨x.handle, .remove, false⟩) := by
        simp only [dropCancelled, hq, if_pos hcancel]
      have hwrites : cancelWrites (x :: rest) = [.listOp (.replace ⟨x.handle, .remove, false⟩)] := by
        simp [cancelWrites, hcancel]
      rw [hdrop, hwrites]
      exact h.note hs (w := .listOp (.replace ⟨x.handle, .remove, false⟩)) nofun rfl
    · have hdrop : dropCancelled e = e := by simp only [dropCancelled, hq, if_neg hcancel]
      have hwrites : cancelWrites (x :: rest) = [] := by simp [cancelWrites, hcancel]
      rw [hdrop, hwrites]
      exact h

/-- All writes of an engine that becomes ACTIVE with a CURRENT view. -/
def State.activeWrites (s : State) : List TableWrite :=
  cancelWrites s.listQueue ++ s.removals.map s.removalWrite ++ s.noticeWrite .roleChange (.line .hold)

theorem wrote_settledIn {s : State} (hs : s.mirroring) (hsorted : SMap.sorted s.slots)
    (hslots : ∀ e ∈ s.slots, e.1 < 2112) : Wrote s s.activeWrites s.settledIn := by
  have hlow : ∀ p ∈ s.removals, p.1 < 2112 := by
    intro p hp
    obtain ⟨e, he, hsome⟩ := List.mem_filterMap.mp hp
    obtain ⟨c, -, hc⟩ := Option.bind_eq_some_iff.mp hsome
    by_cases hrv : c.removalVersion.isSome = true
    · rw [if_pos hrv] at hc
      obtain rfl := Option.some.inj hc
      exact hslots e he
    · rw [if_neg hrv] at hc
      cases hc
  have hcancelled := wrote_dropCancelled hs (wrote_nil hs (rfl : s.mirror = s.mirror))
  have hdropped := wrote_dropRemovals hs hcancelled (removals_keys hsorted) fun p hp v hv => by
    rw [cancelWrites_item hv]
    have := hlow p hp
    omega
  have hsame : s.removals.map (dropCancelled s).removalWrite = s.removals.map s.removalWrite := by
    refine List.map_congr_left fun p _ => ?_
    simp only [State.removalWrite, State.slotAt, dropCancelled_slots]
  rw [hsame] at hdropped
  have hnotices : (dropRemovals s.removals (dropCancelled s)).notices = s.notices := by
    rw [(noted_dropRemovals (noted_dropCancelled s) s.removals).1]
  refine (hdropped.countNotice hs (c := .roleChange) (sub := .line .hold) hnotices fun v hv => ?_).same rfl
  rcases List.mem_append.mp hv with hv | hv
  · rw [cancelWrites_item hv]
    decide
  · obtain ⟨p, -, rfl⟩ := List.mem_map.mp hv
    show 340 + p.1 ≠ 336
    omega

/-! ### An engine that becomes ACTIVE with a CURRENT view -/

section
variable {s : State}

theorem claimed_mirroring (hpair : s.mirror.straps.pair = true) (hwrites : s.mirror.writes = []) :
    (s.claimed (.handover .current)).mirroring := ⟨hpair, rfl, rfl, hwrites⟩

/-- Its writes join the Mirror Queue, or overflow it. -/
theorem finish_becomeActive_current {cause : ClaimCause} (hcause : cause = .handover .current)
    (hpair : s.mirror.straps.pair = true) (hwrites : s.mirror.writes = [])
    (hsorted : SMap.sorted s.slots) (hslots : ∀ e ∈ s.slots, e.1 < 2112)
    (hbusy : s.cu.busy.all (fun b => b.begun || b.ended) = true) {ps : List Payload}
    (hps : (s.claimed cause).activeWrites.flatMap TableWrite.payloads = ps) :
    (finish (becomeActive cause s)).mirror.relayList = [] ∧
    (s.mirror.queue.length + ps.length ≤ 128 →
      (finish (becomeActive cause s)).mirror.currency = .current ∧
      (finish (becomeActive cause s)).mirror.next = BitVec.ofNat 16 ps.length ∧
      (finish (becomeActive cause s)).mirror.queue = s.mirror.queue ++ numbered 0 false ps ∧
      (finish (becomeActive cause s)).notices = s.notices.counted .roleChange (.line .hold)) ∧
    (s.mirror.queue.length ≤ 128 → 128 < s.mirror.queue.length + ps.length →
      (finish (becomeActive cause s)).mirror.currency = .stale) := by
  subst hcause hps
  have hs := claimed_mirroring hpair hwrites
  obtain ⟨hmirror, hnotices, -⟩ := becomeActive_mirror (cause := .handover .current) hbusy
  have hrole := becomeActive_role (.handover .current) s
  have hactive : (becomeActive (.handover .current) s).isActive = true := by rw [State.isActive, hrole]; rfl
  have hwrote : Wrote (s.claimed (.handover .current)) (s.claimed (.handover .current)).activeWrites
      (becomeActive (.handover .current) s) := (wrote_settledIn hs hsorted hslots).same hmirror
  have hqueue : (becomeActive (.handover .current) s).mirror.queue = s.mirror.queue := by rw [hwrote]; rfl
  have hgroup : (becomeActive (.handover .current) s).groupOf =
      (s.claimed (.handover .current)).activeWrites.flatMap TableWrite.payloads := by rw [State.groupOf, hwrote]
  refine ⟨?_, fun hroom => ?_, fun hlen hover => ?_⟩
  · refine (pump_relayList _).trans ((closeGroup_outbox hactive).1.trans ?_)
    rw [hwrote]
    rfl
  · have hfits : ((s.claimed (.handover .current)).withWrites
        (s.claimed (.handover .current)).activeWrites).length ≤ 128 := by
      rw [State.withWrites, List.length_append, numbered_length]
      exact hroom
    obtain ⟨hq, hc, hn⟩ := hasMirrored_finish hwrote hs hfits
    refine ⟨hc, hn.trans (BitVec.zero_add _), hq, ?_⟩
    have hclosed := closeGroup_room (s := becomeActive (.handover .current) s) (by rw [hqueue, hgroup]; exact hroom)
    show (closeGroup (becomeActive (.handover .current) s)).notices = _
    rw [hclosed]
    exact hnotices
  · obtain ⟨q, n, hclosed⟩ := closeGroup_overflow (s := becomeActive (.handover .current) s)
      (by rw [hqueue]; exact hlen) (by rw [hqueue, hgroup]; exact hover)
    refine (pump_currency _).trans ?_
    rw [hclosed]
    exact stopMirroring_currency _ _ _

end

/-- The detail that the COMPLETION of a takeover carries. -/
theorem detail_cases {cause : ClaimCause} {w : BusyWork} {d : Detail}
    (hd : match w with
      | .takeover _ => d = (match cause with
        | .handover held => held.detail
        | .startup | .forced => .stale)
      | .forcedTakeover noted => d = noted.detail
      | _ => False) :
    (∃ handed, w = .takeover handed ∧ d = (viewAfter cause).detail) ∨
      ∃ noted, w = .forcedTakeover noted ∧ d = noted.detail := by
  cases w with
  | takeover handed => exact Or.inl ⟨handed, rfl, hd.trans (by cases cause <;> rfl)⟩
  | forcedTakeover noted => exact Or.inr ⟨noted, rfl, hd⟩
  | exportCases p n r k => exact absurd hd not_false
  | resync => exact absurd hd not_false

/-- Settles O48: the claim's own effect, then the answers, the notice and the mirroring of it. -/
theorem claimMakesActive : Obligations.ClaimMakesActive := by
  unfold Obligations.ClaimMakesActive
  intro cause s hstandby hstage hsorted
  obtain ⟨htables, hroad, hstation, hcentre, hpairing, hsession⟩ := finish_becomeActive cause s
  have hslots : ∀ n, (s.claimed cause).settledTables.slotAt n = s.unremoved n :=
    slotAt_settledIn (s := s.claimed cause) hsorted
  have hanswers := fun (b : Busy) (d : Detail) => finish_becomeActive_answers (cause := cause) (s := s) (b := b) (d := d)
  have hstop : cause = .handover .stale → (finish (becomeActive cause s)).mirror.stopDue = true ∨
      (finish (becomeActive cause s)).mirror.tx = some .stop := by
    rintro rfl
    exact finish_becomeActive_stop s
  have hcalm := finish_becomeActive_calm (cause := cause) (s := s)
  have hcurrent := fun (h : cause = .handover .current) hpair hwrites hlow hbusy =>
    finish_becomeActive_current (s := s) h hpair hwrites hsorted hlow hbusy rfl
  refine ⟨_, exec_claimComplete hstage, ?_⟩
  generalize finish (becomeActive cause s) = t at *
  intro port
  refine ⟨?_, congrArg Pairing.stage hpairing, congrArg Pairing.holdOut hpairing, hstation, hcentre,
    congrArg Road.upQueue hroad, congrArg Road.downQueue hroad, hsession, ?_, fun n => ?_, ?_,
    congrArg Tables.emissions htables, congrArg Tables.feeds htables, congrArg Tables.horizon htables,
    congrArg Tables.injector htables, congrArg Tables.clock htables, congrArg Tables.products htables,
    congrArg Tables.policy htables, congrArg Tables.spill htables,
    fun b hb hended d hd => hanswers b d hb hended (detail_cases hd), hstop,
    fun hwrites hcause hcopy hbusy => ?_, fun hpair hwrites hcause hlow hbusy => ?_⟩
  · have hrole : t.mirror.role = .active := congrArg Pairing.role hpairing
    rw [State.isActive, hrole]
    rfl
  · refine (congrArg Road.walk hroad).trans ?_
    show (s.claimed cause).triggered = _
    rw [State.triggered, if_pos (claimed_active cause s)]
    rfl
  · have hsame : t.slots = (s.claimed cause).settledTables.slots := congrArg Tables.slots htables
    rw [State.slotAt, hsame]
    exact hslots n
  · refine (congrArg Tables.listQueue htables).trans ?_
    show uncancelled s.listQueue = _
    cases s.listQueue with
    | nil => rfl
    | cons e rest => rfl
  · have hview : viewAfter cause = .stale := by
      cases cause with
      | startup => rfl
      | forced => rfl
      | handover held =>
        cases held with
        | stale => rfl
        | current => exact absurd rfl hcause
    obtain ⟨hmirror, hnotices⟩ := hcalm hwrites hview hcopy hbusy
    rw [hmirror]
    exact ⟨(pump_currency _).trans hview, pump_next _, congrArg Pairing.group (pump_pairing _), pump_relayList _,
      congrArg Pairing.relayHold (pump_pairing _), fun _ => hnotices⟩
  · intro ws ps
    have hws : (s.claimed cause).activeWrites = ws :=
      congrArg (fun l => cancelWrites s.listQueue ++ l ++ s.noticeWrite .roleChange (.line .hold))
        (removals_writes hsorted)
    obtain ⟨hrelays, hroom, hover⟩ := hcurrent hcause hpair hwrites hlow hbusy
    rw [hws] at hroom hover
    exact ⟨congrArg Pairing.group hpairing, hrelays, congrArg Pairing.relayHold hpairing, hroom, hover⟩

end Sys2Proof.Machine
